-- ==== Sys2Proof/Word.lean ====
section
/-! DEFINITION. The word types of CORE (spec/00_scope.md R12). -/

namespace Sys2Proof

/-- A byte, 8 bits (R12). -/
abbrev Byte := BitVec 8

/-- A 16-bit quantity: the CRC accumulator, the parameter, the rolling counter (R12). -/
abbrev Half := BitVec 16

/-- A 32-bit cipher word: `v0`, `v1`, `sum`, `k0` to `k3` (R12). -/
abbrev Word := BitVec 32

end Sys2Proof
end

