-- ==== Sys2Proof/Syntax.lean ====
section
/-! DEFINITION. The operations of CORE, one constructor per row of spec/opcode_table.json, and what is
presented at its interface (spec/10_state.md R20, spec/30_encoding.md R70 to R75). -/

namespace Sys2Proof

/-- The five commands, a closed set (30_encoding.md R72). -/
inductive Command where
  | pair | off | on | bright | cct
deriving DecidableEq, Repr

/-- The operands every command carries (30_encoding.md R71). -/
structure ReqOperands where
  param   : Half
  counter : Half
  rnd     : Byte
  ident   : Vector Byte 5
deriving DecidableEq, Repr

/-- A request: the five operand ports of 10_state.md R20 (format REQ, 30_encoding.md R71). -/
structure Request where
  cmd : BitVec 3
  ops : ReqOperands
deriving DecidableEq, Repr

/-- The byte buffers, each an address space of its own (10_state.md R30). -/
inductive Space where
  | hfcore | stream | pl | scratch | sub | blk | hfout | dlout
deriving DecidableEq, Repr

/-- The operations, one constructor per row of opcode_table.json: five of format REQ, ten of format OP.
Operands that R75 names and the operation takes from a register or buffer of its own (STREAM, BLK, the
latches, CC, PB) are read from the state. -/
inductive Instr where
  | pair    (o : ReqOperands)
  | off     (o : ReqOperands)
  | on      (o : ReqOperands)
  | bright  (o : ReqOperands)
  | cct     (o : ReqOperands)
  | crc16f  (b : Space) (start length : Nat) (initial : Half)
  | crc16r
  | rev8    (b : Byte)
  | blkenc
  | dtab
  | obf     (b : Space) (start length : Nat) (key : Byte)
  | perm    (b : Space) (length : Nat) (key : Byte)
  | hfbuild
  | dlbuild
  | encode  (r : Request)
deriving DecidableEq, Repr

/-- The operand values that accompany an internal select (opcode_table.json: "operands are passed as values,
not encoded in the select"; log 6). Each operation reads the ones R75 lists for it. -/
structure OpWires where
  space   : Space
  start   : Nat
  length  : Nat
  initial : Half
  key     : Byte
  byte    : Byte
  req     : Request
deriving DecidableEq, Repr

/-- What the decoder is given: a request word (format REQ, 83 bits) or an internal select (format OP, 4
bits) with its operand values (30_encoding.md R70). -/
inductive Presented where
  | req (w : BitVec 83)
  | op  (sel : BitVec 4) (wires : OpWires)
deriving DecidableEq, Repr

/-- The output ports a host reads (10_state.md R20), and the phase (R23). -/
inductive OutPort where
  | phase | done | err | cause | hf | dl
deriving DecidableEq, Repr

/-- What a host reads at an output port. -/
inductive PortValue where
  | code  (v : BitVec 2)
  | bit   (v : Bool)
  | frame (bytes : List Byte)
deriving DecidableEq, Repr

/-- What happens at the core next: the host drives the input ports, the internal control drives a unit
operation on its own, or the host reads an output port (60_exceptions.md R215; log 4, log 7). -/
inductive Event where
  | ports (rst start : Bool) (r : Request)
  | op    (sel : BitVec 4) (wires : OpWires)
  | read  (port : OutPort)
deriving DecidableEq, Repr

end Sys2Proof
end

