-- ==== Sys2Proof/WellFormed.lean ====
section
/-! DEFINITION. Which operations are well formed: the buffer operand is one that spec/20_memory.md R51 gives
the operation. Every other operand is of a type that holds exactly the values its field can take. -/

namespace Sys2Proof

/-- The buffers CRC16F is given (20_memory.md R51). -/
def Space.crcReads : Space → Bool
  | .hfcore | .stream => true
  | .pl | .scratch | .sub | .blk | .hfout | .dlout => false

/-- The buffer OBF transforms (20_memory.md R51). -/
def Space.obfWrites : Space → Bool
  | .hfcore => true
  | .stream | .pl | .scratch | .sub | .blk | .hfout | .dlout => false

/-- The buffers PERM transforms (20_memory.md R51). -/
def Space.permWrites : Space → Bool
  | .sub | .scratch => true
  | .hfcore | .stream | .pl | .blk | .hfout | .dlout => false

/-- An operation is well formed when its buffer operand is one R51 gives it (log 8). -/
def Instr.wf : Instr → Bool
  | .crc16f b _ _ _ => b.crcReads
  | .obf b _ _ _    => b.obfWrites
  | .perm b _ _     => b.permWrites
  | .pair _ | .off _ | .on _ | .bright _ | .cct _ => true
  | .crc16r | .rev8 _ | .blkenc | .dtab | .hfbuild | .dlbuild | .encode _ => true

end Sys2Proof
end

