-- ==== Sys2Proof/Decode.lean ====
section
/-! DEFINITION. Decoding and encoding of the two formats (spec/30_encoding.md R70 to R78, R84). -/

namespace Sys2Proof

/-- Why the decoder gives no operation. -/
inductive Reject where
  /-- `cmd` 5, 6 or 7 selects no command (R73, R84): the request raises UnknownCommand. -/
  | unknownCommand (r : Request)
  /-- `op` 0000 or 1011 to 1111 selects no operation (93_implementation_defined.md U8). -/
  | unusedSelect (sel : BitVec 4)
  /-- The operation does not reach this buffer (20_memory.md R51; log 8). -/
  | bufferNotReached (b : Space)
deriving DecidableEq, Repr

/-- The command a code selects (R72); codes 5, 6 and 7 select none (R73). -/
def Command.ofCode (cmd : BitVec 3) : Option Command :=
  match cmd.toNat with
  | 0 => some .pair
  | 1 => some .off
  | 2 => some .on
  | 3 => some .bright
  | 4 => some .cct
  | _ => none

/-- The code of a command (R72). -/
def Command.code : Command → BitVec 3
  | .pair => 0
  | .off => 1
  | .on => 2
  | .bright => 3
  | .cct => 4

/-- The 83-bit request word of R71, from its fields. -/
def Request.word (r : Request) : BitVec 83 :=
  (r.ops.ident[4] ++ r.ops.ident[3] ++ r.ops.ident[2] ++ r.ops.ident[1] ++ r.ops.ident[0]
    ++ r.ops.rnd ++ r.ops.counter ++ r.ops.param ++ r.cmd).cast rfl

/-- The fields of the request word (R71: `cmd` 2:0, `param` 18:3, `counter` 34:19, `rnd` 42:35, `ident[0]`
50:43 up to `ident[4]` 82:75). -/
def Request.ofWord (w : BitVec 83) : Request where
  cmd := w.extractLsb' 0 3
  ops :=
    { param   := w.extractLsb' 3 16
      counter := w.extractLsb' 19 16
      rnd     := w.extractLsb' 35 8
      ident   := #v[w.extractLsb' 43 8, w.extractLsb' 51 8, w.extractLsb' 59 8, w.extractLsb' 67 8,
                    w.extractLsb' 75 8] }

/-- The operation of a command with its operands (R72). -/
def Command.instr (c : Command) (o : ReqOperands) : Instr :=
  match c with
  | .pair => .pair o
  | .off => .off o
  | .on => .on o
  | .bright => .bright o
  | .cct => .cct o

/-- A request as an operation, where its code selects a command (R72, R73). -/
def decodeRequest (r : Request) : Except Reject Instr :=
  match Command.ofCode r.cmd with
  | some c => .ok (c.instr r.ops)
  | none => .error (.unknownCommand r)

/-- `i`, provided the operation reaches the buffer it names (20_memory.md R51). -/
def reaching (reaches : Bool) (b : Space) (i : Instr) : Except Reject Instr :=
  if reaches then .ok i else .error (.bufferNotReached b)

/-- An internal select with its operand values as an operation (R75). -/
def decodeSelect (sel : BitVec 4) (x : OpWires) : Except Reject Instr :=
  match sel.toNat with
  | 1 => reaching x.space.crcReads x.space (.crc16f x.space x.start x.length x.initial)
  | 2 => .ok .crc16r
  | 3 => .ok (.rev8 x.byte)
  | 4 => .ok .blkenc
  | 5 => .ok .dtab
  | 6 => reaching x.space.obfWrites x.space (.obf x.space x.start x.length x.key)
  | 7 => reaching x.space.permWrites x.space (.perm x.space x.length x.key)
  | 8 => .ok .hfbuild
  | 9 => .ok .dlbuild
  | 10 => .ok (.encode x.req)
  | _ => .error (.unusedSelect sel)

/-- The decoder: total on every request word and every select. -/
def decode : Presented → Except Reject Instr
  | .req w => decodeRequest (Request.ofWord w)
  | .op sel x => decodeSelect sel x

/-- The request word of a command with its operands (R71, R72). -/
def encodeCommand (c : Command) (o : ReqOperands) : Presented := .req (Request.word ⟨c.code, o⟩)

/-- Operand values that are all zero; the buffer is the first that R51 gives the selected operation. -/
def OpWires.zero (sel : BitVec 4) : OpWires where
  space   := if sel = 7 then .sub else .hfcore
  start   := 0
  length  := 0
  initial := 0
  key     := 0
  byte    := 0
  req     := Request.ofWord 0

/-- The encoder: the request word, or the select with its operand values (R71, R72, R75). -/
def encode : Instr → Presented
  | .pair o => encodeCommand .pair o
  | .off o => encodeCommand .off o
  | .on o => encodeCommand .on o
  | .bright o => encodeCommand .bright o
  | .cct o => encodeCommand .cct o
  | .crc16f b start length initial =>
    .op 1 { OpWires.zero 1 with space := b, start := start, length := length, initial := initial }
  | .crc16r => .op 2 (OpWires.zero 2)
  | .rev8 b => .op 3 { OpWires.zero 3 with byte := b }
  | .blkenc => .op 4 (OpWires.zero 4)
  | .dtab => .op 5 (OpWires.zero 5)
  | .obf b start length key => .op 6 { OpWires.zero 6 with space := b, start := start, length := length, key := key }
  | .perm b length key => .op 7 { OpWires.zero 7 with space := b, length := length, key := key }
  | .hfbuild => .op 8 (OpWires.zero 8)
  | .dlbuild => .op 9 (OpWires.zero 9)
  | .encode r => .op 10 { OpWires.zero 10 with req := r }

/-- What a row of opcode_table.json presents, its bits numbered as the table numbers them: a row of at most
8 bits is a 4-bit select of format OP, whose operand values are then zero; a longer one is the 83-bit word of
format REQ. The lines above bit 3 or bit 82 do not exist (log 6). -/
def tablePresented (nbits w : Nat) : Presented :=
  if nbits ≤ 8 then .op (BitVec.ofNat 4 w) (OpWires.zero (BitVec.ofNat 4 w)) else .req (BitVec.ofNat 83 w)

/-- The instruction the decoder reads from a row's bits. -/
def decodeTableWord (nbits w : Nat) : Option Instr :=
  match decode (tablePresented nbits w) with
  | .ok i => some i
  | .error _ => none

/-- What the host or the control drives so that `p` is presented: a request with `start` = 1 and `rst` = 0,
or the select. -/
def Presented.event : Presented → Event
  | .req w => .ports false true (Request.ofWord w)
  | .op sel x => .op sel x

/-- What an event presents to the decoder: the ports' request packed into its word (R71), if `start` = 1 and
`rst` = 0 (10_state.md R20, R22; log 5), or a driven select. -/
def Event.presented : Event → Option Presented
  | .ports rst start r => if rst = false ∧ start = true then some (.req r.word) else none
  | .op sel x => some (.op sel x)
  | .read _ => none

end Sys2Proof
end

