-- ==== Sys2Proof/Config.lean ====
section
/-! DEFINITION. What an implementation fixes (the open parameters P1 to P10 of spec/00_scope.md R11) and
the free values of the model. -/

namespace Sys2Proof.Config

/-- The ten constants the source names and does not give (00_scope.md R11; 92_eei_decisions.md P1 to P10).
Each field can hold exactly the values its constraint in R11 allows, so no proof has to assume one and no
allowed value is shut out (log 3). -/
structure Params where
  /-- P1 `KEY`, 16 bytes. -/
  key : Vector Byte 16
  /-- P2 `SEED`, 16 bytes. -/
  seed : Vector Byte 16
  /-- P3 `SUM_INIT`, a 32-bit word. -/
  sumInit : Word
  /-- P4 `CC_OFF`, in -128 to -1: its bits 6 to 0; bit 7 is 1. -/
  ccOffLow : BitVec 7
  /-- P5 `CC_ON`, likewise. -/
  ccOnLow : BitVec 7
  /-- P6 `CC_BRIGHT`, likewise. -/
  ccBrightLow : BitVec 7
  /-- P7 `CC_CCT`, likewise. -/
  ccCctLow : BitVec 7
  /-- P8 `PK_INIT`: bits 7 to 1 of its result, from bits 5 to 0 of its argument; bit 0 of the result is 1
  (44_bitperm.md R136). -/
  pkInitHigh : BitVec 6 → BitVec 7
  /-- P9 `PK_STEP`: a fixed function of the processed key alone (44_bitperm.md R137). -/
  pkStep : Byte → Byte
  /-- P10 `PERM_BITSEQ`: a permutation of 0 to 7; `bitSeq n` is the position visited at place `n`
  (44_bitperm.md R138). -/
  bitSeq : Equiv.Perm (Fin 8)
deriving Inhabited

/-- The parameters of the device. No body: nothing in Lean can tell which they are (R11: "a model must not
assume one"). -/
opaque params : Params

/-- The registers a free value is drawn for (spec/10_state.md R22, R25, R26, R28; `rev` is the model's own). -/
inductive Reg where
  | cmd | param | ident (i : Nat) | counter | rnd
  | isPair | cc | pcl | pb (i : Nat)
  | v0 | v1 | sum | k0 | k1 | k2 | k3 | table (i : Nat)
  | crca | crcf | ob | oi | obp | pk | acc | temp
  | j | m | rndCnt | rev
deriving DecidableEq, Repr

/-- What register `reg`, `width` bits wide, holds at the `occasion`-th time the spec leaves it unspecified
(10_state.md R35; log 1, log 9, log 10). No body: a statement about it holds for every value. -/
opaque freeValue (width : Nat) (reg : Reg) (occasion : Nat) : BitVec width

end Sys2Proof.Config
end

