-- ==== Sys2Proof/Machine/State.lean ====
section
/-! DEFINITION. The state of CORE as plain data (spec/10_state.md R20 to R35), the reasons a step can stop,
and the state after reset. -/

namespace Sys2Proof.Machine

open Sys2Proof.Config

/-- A buffer's contents: (index, byte) pairs, indices strictly rising. An index that is not listed holds no
value (10_state.md R27, R35; log 2). -/
abbrev Memory := List Host.Cell

/-- The canonical form of a buffer of `size` bytes: indices strictly rising, none outside the buffer. -/
abbrev Memory.wf (size : Nat) (m : Memory) : Prop :=
  m.Pairwise (fun a b => a.1 < b.1) ∧ ∀ c ∈ m, c.1 < size

/-- The request latches (R22). -/
structure Latches where
  cmd     : BitVec 3
  param   : Half
  ident   : Vector Byte 5
  counter : Half
  rnd     : Byte
deriving DecidableEq, Repr

/-- The phases of STATUS (R23); code 3 never occurs. -/
inductive Phase where
  | idle | done | err
deriving DecidableEq, Repr

/-- The cause codes of STATUS (R23, 60_exceptions.md R206); codes 2 and 3 never occur. -/
inductive Cause where
  | none | unknownCommand
deriving DecidableEq, Repr

/-- The status register (R23). -/
structure Status where
  phase : Phase
  done  : Bool
  err   : Bool
  cause : Cause
deriving DecidableEq, Repr

/-- The orchestrator's flag and working registers (R25, R26). -/
structure OrchRegs where
  isPair : Bool
  cc     : Byte
  pcl    : Half
  pb     : Vector Byte 3
deriving DecidableEq, Repr

/-- The cipher engine's working registers (R26). -/
structure CipherRegs where
  v0  : Word
  v1  : Word
  sum : Word
  k0  : Word
  k1  : Word
  k2  : Word
  k3  : Word
deriving DecidableEq, Repr

/-- The CRC16 engine's working registers (R26). -/
structure CrcRegs where
  crca : Half
  crcf : Half
deriving DecidableEq, Repr

/-- The substitution engine's working registers (R26). -/
structure SubstRegs where
  ob  : Byte
  oi  : BitVec 4
  obp : Byte
deriving DecidableEq, Repr

/-- The permutation engine's working registers (R26). -/
structure PermRegs where
  pk  : Byte
  acc : Byte
deriving DecidableEq, Repr

/-- The loop counters (R26). -/
structure LoopRegs where
  j      : BitVec 5
  m      : BitVec 3
  rndCnt : BitVec 6
deriving DecidableEq, Repr

/-- The byte buffers (R30), each an address space of its own. -/
structure Buffers where
  hfcore  : Memory
  stream  : Memory
  pl      : Memory
  scratch : Memory
  sub     : Memory
  blk     : Memory
  hfout   : Memory
  dlout   : Memory
deriving DecidableEq, Repr

/-- The state of the machine. -/
structure State where
  /-- What is presented to the core next, in order; the model's own (log 4). -/
  events   : List Event
  latches  : Latches
  status   : Status
  orch     : OrchRegs
  cipher   : CipherRegs
  /-- The cipher table `T` (R28). -/
  table    : Vector Byte 16
  crc      : CrcRegs
  subst    : SubstRegs
  perm     : PermRegs
  /-- `TEMP` of the Deli16 builder (R26). -/
  temp     : Byte
  loops    : LoopRegs
  /-- The result of a REV8 driven on its own; the model's own (log 10). -/
  rev      : Byte
  mem      : Buffers
  /-- How many times a free value has been drawn; the model's own (log 1). -/
  occasion : Nat
deriving DecidableEq, Repr

/-- Why the machine stops where the spec gives it no way on. -/
inductive Fault where
  /-- Raised by CRC16F, CRC16R, BLKENC, OBF and PERM when a byte of their operand buffer holds no value
  (10_state.md R27, R35; log 2). ENCODE never raises it. Safe. -/
  | noValue (b : Space)
deriving DecidableEq, Repr

/-- Why the model gives an event no meaning. -/
inductive Refusal where
  /-- Raised by an arm of `exec` whose instruction has no meaning yet. No arm raises it. Safe. -/
  | notModelled (mnemonic : String)
  /-- Raised by OBF when `start + 1` is outside its buffer (43_subst_xor.md R128, D18). Safe. -/
  | selectorOutOfRange
  /-- Raised by a host read of `hf` or `dl` while DONE = 0 (10_state.md R31, 93_implementation_defined.md U2;
  log 13). Safe. -/
  | framesNotValid
  /-- Raised by a driven select 0000 or 1011 to 1111 (93_implementation_defined.md U8). Safe. -/
  | unusedSelect (sel : BitVec 4)
  /-- Raised by an operation driven at a buffer it does not reach (20_memory.md R51; log 8). Safe. -/
  | bufferNotReached (b : Space)
deriving DecidableEq, Repr

/-- No buffer holds a value (R35). -/
def Buffers.unwritten : Buffers := ⟨[], [], [], [], [], [], [], []⟩

/-- The state reset leaves: STATUS cleared, every buffer without a value, every register at the free value of
this occasion (10_state.md R35, 70_reset_and_hazards.md R225; log 1). -/
def State.powerUp (occasion : Nat) (events : List Event) : State where
  events := events
  latches :=
    { cmd     := freeValue 3 .cmd occasion
      param   := freeValue 16 .param occasion
      ident   := #v[freeValue 8 (.ident 0) occasion, freeValue 8 (.ident 1) occasion, freeValue 8 (.ident 2) occasion,
                    freeValue 8 (.ident 3) occasion, freeValue 8 (.ident 4) occasion]
      counter := freeValue 16 .counter occasion
      rnd     := freeValue 8 .rnd occasion }
  status := { phase := .idle, done := false, err := false, cause := .none }
  orch :=
    { isPair := (freeValue 1 .isPair occasion).getLsbD 0
      cc     := freeValue 8 .cc occasion
      pcl    := freeValue 16 .pcl occasion
      pb     := #v[freeValue 8 (.pb 0) occasion, freeValue 8 (.pb 1) occasion, freeValue 8 (.pb 2) occasion] }
  cipher :=
    { v0  := freeValue 32 .v0 occasion
      v1  := freeValue 32 .v1 occasion
      sum := freeValue 32 .sum occasion
      k0  := freeValue 32 .k0 occasion
      k1  := freeValue 32 .k1 occasion
      k2  := freeValue 32 .k2 occasion
      k3  := freeValue 32 .k3 occasion }
  table :=
    #v[freeValue 8 (.table 0) occasion, freeValue 8 (.table 1) occasion, freeValue 8 (.table 2) occasion,
       freeValue 8 (.table 3) occasion, freeValue 8 (.table 4) occasion, freeValue 8 (.table 5) occasion,
       freeValue 8 (.table 6) occasion, freeValue 8 (.table 7) occasion, freeValue 8 (.table 8) occasion,
       freeValue 8 (.table 9) occasion, freeValue 8 (.table 10) occasion, freeValue 8 (.table 11) occasion,
       freeValue 8 (.table 12) occasion, freeValue 8 (.table 13) occasion, freeValue 8 (.table 14) occasion,
       freeValue 8 (.table 15) occasion]
  crc := { crca := freeValue 16 .crca occasion, crcf := freeValue 16 .crcf occasion }
  subst := { ob := freeValue 8 .ob occasion, oi := freeValue 4 .oi occasion, obp := freeValue 8 .obp occasion }
  perm := { pk := freeValue 8 .pk occasion, acc := freeValue 8 .acc occasion }
  temp := freeValue 8 .temp occasion
  loops := { j := freeValue 5 .j occasion, m := freeValue 3 .m occasion, rndCnt := freeValue 6 .rndCnt occasion }
  rev := freeValue 8 .rev occasion
  mem := Buffers.unwritten
  occasion := occasion + 1

/-- The machine right after reset, with nothing presented to it (10_state.md R35). -/
def State.reset : State := State.powerUp 0 []

end Sys2Proof.Machine
end

