-- ==== Sys2Proof/Machine/Ops.lean ====
section
/-! DEFINITION. The named operations over buffers and registers: reading and writing a buffer
(spec/20_memory.md), accepting a request, taking UnknownCommand and leaving it (spec/60_exceptions.md),
reset, and what the host reads. -/

namespace Sys2Proof.Machine

open Sys2Proof.Config

/-! ### Buffers -/

/-- The length of a buffer (10_state.md R30, 20_memory.md R50). -/
def bufSize : Space → Nat
  | .hfcore => 16
  | .stream => 11
  | .pl => 8
  | .scratch => 29
  | .sub => 13
  | .blk => 8
  | .hfout => 26
  | .dlout => 26

/-- The byte at an index, if it holds a value. -/
def Memory.read : Memory → Nat → Option Byte
  | [], _ => none
  | (a, b) :: m, i => if i = a then some b else Memory.read m i

/-- Write one byte, keeping the indices rising. -/
def Memory.write : Memory → Nat → Byte → Memory
  | [], i, v => [(i, v)]
  | (a, b) :: m, i, v =>
    if i < a then (i, v) :: (a, b) :: m
    else if i = a then (i, v) :: m
    else (a, b) :: Memory.write m i v

/-- Write consecutive bytes from an index on. -/
def Memory.writeRange (m : Memory) (start : Nat) : List Byte → Memory
  | [] => m
  | b :: bs => Memory.writeRange (m.write start b) (start + 1) bs

/-- A buffer freshly filled with consecutive bytes from index `start` on, and nothing else. -/
def Memory.ofBytes (start : Nat) : List Byte → Memory
  | [] => []
  | b :: bs => (start, b) :: Memory.ofBytes (start + 1) bs

/-- The byte at an index that is known to hold a value. Every use stands behind `Memory.holds`, or reads a
byte that the same operation has written. -/
def Memory.get (m : Memory) (i : Nat) : Byte := (m.read i).getD 0

/-- Do the `n` bytes from `start` on all hold a value? -/
def Memory.holds (m : Memory) (start n : Nat) : Bool := (List.range n).all fun k => (m.read (start + k)).isSome

/-- The `n` bytes from `start` on. -/
def Memory.slice (m : Memory) (start n : Nat) : List Byte := (List.range n).map fun k => m.get (start + k)

/-- How many of `length` positions from `start` on are inside a buffer of `size` bytes: the others are skipped
or cut (20_memory.md R59, R60). -/
def spanLen (size start length : Nat) : Nat := min length (size - start)

/-- A buffer's contents. -/
def bufferOf (m : Buffers) : Space → Memory
  | .hfcore => m.hfcore
  | .stream => m.stream
  | .pl => m.pl
  | .scratch => m.scratch
  | .sub => m.sub
  | .blk => m.blk
  | .hfout => m.hfout
  | .dlout => m.dlout

/-- The buffers with one of them replaced. -/
def replaceBuffer (m : Buffers) (b : Space) (new : Memory) : Buffers :=
  match b with
  | .hfcore  => { m with hfcore := new }
  | .stream  => { m with stream := new }
  | .pl      => { m with pl := new }
  | .scratch => { m with scratch := new }
  | .sub     => { m with sub := new }
  | .blk     => { m with blk := new }
  | .hfout   => { m with hfout := new }
  | .dlout   => { m with dlout := new }

/-- A buffer's contents. -/
def State.buf (s : State) (b : Space) : Memory := bufferOf s.mem b

/-- Replace a buffer's contents. -/
def State.setBuf (s : State) (b : Space) (new : Memory) : State := { s with mem := replaceBuffer s.mem b new }

/-! ### Bytes and words -/

/-- The low byte of a 16-bit value (00_scope.md R15). -/
def low8 (v : Half) : Byte := v.extractLsb' 0 8

/-- The high byte of a 16-bit value (00_scope.md R15). -/
def high8 (v : Half) : Byte := v.extractLsb' 8 8

/-- Four bytes as a little-endian word, the first byte lowest (00_scope.md R15, 20_memory.md R53). -/
def le32 (b0 b1 b2 b3 : Byte) : Word := b3 ++ b2 ++ b1 ++ b0

/-- A word as four bytes, least significant first (00_scope.md R15). -/
def stLe32 (w : Word) : List Byte :=
  [w.extractLsb' 0 8, w.extractLsb' 8 8, w.extractLsb' 16 8, w.extractLsb' 24 8]

/-! ### Registers -/

/-- The loop counters after a unit operation: the spec does not say where a loop leaves them (log 9). -/
def State.loopsDone (s : State) : State :=
  { s with
    loops :=
      { j := freeValue 5 .j s.occasion, m := freeValue 3 .m s.occasion, rndCnt := freeValue 6 .rndCnt s.occasion }
    occasion := s.occasion + 1 }

/-! ### Acceptance, the exception, completion (47_orchestrator.md R185; 60_exceptions.md R205 to R212) -/

/-- The next event has been presented. -/
def State.popEvent (s : State) : State := { s with events := s.events.tail }

/-- Acceptance of a request: the operand ports are copied, all at once, into the latches; DONE, ERR and CAUSE
are cleared and the frames hold no value (10_state.md R22, 47_orchestrator.md R185). This is also how the
error state ends (60_exceptions.md R211). -/
def acceptRequest (r : Request) (s : State) : State :=
  { s with
    latches :=
      { cmd := r.cmd, param := r.ops.param, ident := r.ops.ident, counter := r.ops.counter, rnd := r.ops.rnd }
    status := { s.status with done := false, err := false, cause := .none }
    mem := { s.mem with hfout := [], dlout := [] } }

/-- Taking UnknownCommand, after acceptance: the report is PHASE, ERR, CAUSE and DONE; the frames hold no
value; the latches stay as accepted; nothing else is computed (60_exceptions.md R206, R210). -/
def raiseUnknownCommand (s : State) : State :=
  { s with
    status := { phase := .err, done := false, err := true, cause := .unknownCommand }
    mem := { s.mem with hfout := [], dlout := [] } }

/-- The last step of ENCODE: both frames become valid together (47_orchestrator.md R185 step 4, R189). -/
def completeEncode (s : State) : State :=
  { s with status := { s.status with phase := .done, done := true } }

/-- `rst` asserted, in any phase (70_reset_and_hazards.md R225): what the host presents afterwards is not the
core's and stays. -/
def resetCore (s : State) : State := State.powerUp s.occasion s.events

/-! ### What the host reads -/

/-- The code of a phase (10_state.md R23). -/
def Phase.code : Phase → BitVec 2
  | .idle => 0
  | .done => 1
  | .err => 2

/-- The code of a cause (60_exceptions.md R206). -/
def Cause.code : Cause → BitVec 2
  | .none => 0
  | .unknownCommand => 1

/-- The 26 bytes of an output frame, which hold a value only while DONE = 1 (10_state.md R31,
93_implementation_defined.md U2). -/
def State.readFrame (s : State) (b : Space) : Except Refusal PortValue :=
  if s.status.done && (s.buf b).holds 0 26 then .ok (.frame ((s.buf b).slice 0 26)) else .error .framesNotValid

/-- What the host reads at an output port (10_state.md R20, R23, R31). -/
def State.readPort (s : State) : OutPort → Except Refusal PortValue
  | .phase => .ok (.code s.status.phase.code)
  | .done => .ok (.bit s.status.done)
  | .err => .ok (.bit s.status.err)
  | .cause => .ok (.code s.status.cause.code)
  | .hf => s.readFrame .hfout
  | .dl => s.readFrame .dlout

/-! ### Events -/

/-- What the machine does with something presented that the decoder rejects: a request with an unrecognised
command is accepted and raises UnknownCommand (30_encoding.md R73); an unused select, or one driven at a
buffer it does not reach, is refused. -/
def rejected (r : Reject) (s : State) : Host.Outcome State Fault Refusal :=
  match r with
  | .unknownCommand q => .next (raiseUnknownCommand (acceptRequest q s))
  | .unusedSelect sel => .refused (.unusedSelect sel)
  | .bufferNotReached b => .refused (.bufferNotReached b)

/-- An event that presents nothing to the decoder: `rst`, ports without `start`, or a host read. -/
def quietEvent (e : Event) (s : State) : Host.Outcome State Fault Refusal :=
  match e with
  | .ports true _ _ => .next (resetCore s)
  | .ports false _ _ => .next s
  | .op _ _ => .next s
  | .read port =>
    match s.readPort port with
    | .ok _ => .next s
    | .error r => .refused r

/-- The operand bytes of an operation presented with operands of zero: CRC16R, BLKENC and OBF read a whole
buffer of their own, whose bytes are then zero (log 6). -/
def State.withZeroOperandBytes (s : State) (p : Presented) : State :=
  match p with
  | .req _ => s
  | .op sel _ =>
    match sel.toNat with
    | 2 => s.setBuf .stream (Memory.ofBytes 0 (List.replicate 11 0))
    | 4 => s.setBuf .blk (Memory.ofBytes 0 (List.replicate 8 0))
    | 6 => s.setBuf .hfcore (Memory.ofBytes 0 (List.replicate 16 0))
    | _ => s

end Sys2Proof.Machine
end

