-- ==== Sys2Proof/Machine/Bitrev.lean ====
section
/-! DEFINITION. The 8-bit bit-reversal unit (spec/41_bitrev.md): `REV8`. -/

namespace Sys2Proof.Machine

/-- Bit `i` of the input becomes bit `7 - i` of the output (R110). -/
def rev8 (b : Byte) : Byte :=
  (List.range 8).foldl (fun (r : Byte) i => r ||| (((b >>> i) &&& 1#8) <<< (7 - i))) 0#8

/-- REV8 driven on its own: the result is held in `rev` (R110; log 10). -/
def execRev8 (b : Byte) (s : State) : Host.Outcome State Fault Refusal :=
  .next { s with rev := rev8 b }.loopsDone

end Sys2Proof.Machine
end

