-- ==== Sys2Proof/Machine/Crc.lean ====
section
/-! DEFINITION. The CRC16 engine (spec/40_crc16.md): `CRC16F`, `CRC16R`. -/

namespace Sys2Proof.Machine

/-- One shift-and-conditional-XOR step, the polynomial `0x1021` (R101). -/
def crcStep (a : Half) : Half := if a.getLsbD 15 then (a <<< 1) ^^^ 0x1021 else a <<< 1

/-- Fold one byte into the accumulator: XOR into its high byte, then eight steps (R100). -/
def crcByte (a : Half) (b : Byte) : Half := crcStep^[8] (a ^^^ (b.setWidth 16 <<< 8))

/-- Fold the byte at `start + j`, if the buffer has one; otherwise nothing (R100, 20_memory.md R60). -/
def crcPosition (B : List Byte) (start : Nat) (a : Half) (j : Nat) : Half :=
  match B[start + j]? with
  | some b => crcByte a b
  | none => a

/-- CRC16F over a buffer whose bytes all hold a value: `length` bytes from `start`, cut at the end of the
buffer (R100, 20_memory.md R60). -/
def crc16f (B : List Byte) (start length : Nat) (initial : Half) : Half :=
  (List.range length).foldl (crcPosition B start) initial

/-- The output stage of the reflected generator: each byte reversed, the two bytes exchanged, all 16 bits
inverted (R104). -/
def reflout (a : Half) : Half := (rev8 (low8 a) ++ rev8 (high8 a)) ^^^ 0xFFFF

/-- CRC16R over a stream (R103). -/
def crc16r (stream : List Byte) : Half := reflout (crc16f stream 0 stream.length 0xFFFF)

/-- CRC16F on a buffer of the state: the result is `CRCA` (R100, 20_memory.md R51). -/
def crc16fOn (b : Space) (start length : Nat) (initial : Half) (s : State) : State :=
  let n := spanLen (bufSize b) start length
  { s with crc := { s.crc with crca := crc16f ((s.buf b).slice start n) 0 n initial } }.loopsDone

/-- CRC16R on `STREAM`: `CRCA`, then `CRCF` (R103). -/
def crc16rOn (s : State) : State :=
  let t := crc16fOn .stream 0 11 0xFFFF s
  { t with crc := { t.crc with crcf := reflout t.crc.crca } }

/-- CRC16F driven on its own (R100). -/
def execCrc16f (b : Space) (start length : Nat) (initial : Half) (s : State) : Host.Outcome State Fault Refusal :=
  if (s.buf b).holds start (spanLen (bufSize b) start length) then .next (crc16fOn b start length initial s)
  else .fault (.noValue b)

/-- CRC16R driven on its own (R103). -/
def execCrc16r (s : State) : Host.Outcome State Fault Refusal :=
  if s.mem.stream.holds 0 11 then .next (crc16rOn s) else .fault (.noValue .stream)

end Sys2Proof.Machine
end

