-- ==== Sys2Proof/Machine/Flags.lean ====
section
/-! DEFINITION. The one condition flag of ENCODE (spec/10_state.md R25). No arithmetic operation writes a
flag (R25, 00_scope.md R16); ERR and DONE are written by the operations of Ops.lean. -/

namespace Sys2Proof.Machine

/-- The control code of Pair, -76 as a byte (00_scope.md R10, R17). -/
def ccPair : Byte := 0xB4

/-- `IS_PAIR`: the control code equals the Pair code, compared as bytes (10_state.md R25, 00_scope.md R17;
90_conflicts.md C6). -/
def isPairFlag (cc : Byte) : Bool := cc == ccPair

end Sys2Proof.Machine
end

