-- ==== Sys2Proof/Machine/Operands.lean ====
section
/-! DEFINITION. The operand forms: the control code of a command, the parameter and its block, the identity
and the counter as the builders take them (spec/30_encoding.md R74, R76 to R78), and the open parameters as
the rules name them (spec/00_scope.md R11). -/

namespace Sys2Proof.Machine

open Sys2Proof.Config

/-- A control code from its seven open bits: a negative byte, in -128 to -1 (00_scope.md R11, R17). -/
def negByte (low : BitVec 7) : Byte := 1#1 ++ low

/-- The control-code table (30_encoding.md R74, 47_orchestrator.md R186). -/
def controlCode (P : Params) : Command → Byte
  | .pair => ccPair
  | .off => negByte P.ccOffLow
  | .on => negByte P.ccOnLow
  | .bright => negByte P.ccBrightLow
  | .cct => negByte P.ccCctLow

/-- Does the command take a parameter (30_encoding.md R72)? -/
def takesParam : Command → Bool
  | .bright | .cct => true
  | .pair | .off | .on => false

/-- The clamp to [1, 1000], unsigned (47_orchestrator.md R187). -/
def clamp (v : Half) : Half := if v < 1 then 1 else if 1000 < v then 1000 else v

/-- The parameter block of a clamped parameter: {0, high byte, low byte} (47_orchestrator.md R188,
20_memory.md R55). -/
def paramBlock (pcl : Half) : Vector Byte 3 := #v[0, high8 pcl, low8 pcl]

/-- `PK_INIT` (44_bitperm.md R136): bits 5 to 0 of the key decide bits 7 to 1 of the result; bit 0 is 1. -/
def pkInit (P : Params) (key : Byte) : Byte := P.pkInitHigh (key.extractLsb' 0 6) ++ 1#1

/-- `PERM_BITSEQ` (44_bitperm.md R138): the eight bit positions in the order they are visited. -/
def bitSeq (P : Params) : List (Fin 8) := (List.finRange 8).map P.bitSeq

/-- Bytes 0 to 3 of the HF frame, ASCII "HFKJ" (30_encoding.md R80). -/
def hfFrameHead : List Byte := [0x48, 0x46, 0x4B, 0x4A]

/-- Bytes 20 to 25 of the HF frame (30_encoding.md R80). -/
def hfFrameTail : List Byte := [0x10, 0x11, 0x12, 0x13, 0x14, 0x15]

/-- HF core bytes 11 to 13 for the Pair code (00_scope.md R10, 45_hf_builder.md R152). -/
def pairMarker : List Byte := [0xAA, 0x66, 0x55]

/-- The page number, fixed (00_scope.md R10). -/
def page : Byte := 3

/-- Scratch bytes 13 to 15 before the reversal (00_scope.md R10, 46_deli16_builder.md R169). -/
def dlMarker : List Byte := [0x71, 0x0F, 0x55]

/-- The three bytes before the payload in the CRC stream (00_scope.md R10, 46_deli16_builder.md R167). -/
def dlCrcHead : List Byte := [0xCC, 0x55, 0xAA]

/-- Bytes 16 to 25 of the Deli16 frame (00_scope.md R10, 46_deli16_builder.md R175). -/
def dlFiller : List Byte := [0x10, 0x11, 0x12, 0x13, 0x14, 0x15, 0x16, 0x17, 0x18, 0x19]

end Sys2Proof.Machine
end

