-- ==== Sys2Proof/Machine/Perm.lean ====
section
/-! DEFINITION. The bit-permutation engine with rotating key schedule (spec/44_bitperm.md): `PERM`. -/

namespace Sys2Proof.Machine

open Sys2Proof.Config

/-- One bit position `m` of a byte `b`: bit 6 of the processed key, shifted to `m`, XORed with the byte's bit
`m`, into the accumulator; then the key steps (R135, R137, R138). -/
def permBit (P : Params) (b : Byte) (r : PermRegs) (m : Fin 8) : PermRegs where
  acc := r.acc ||| (((((r.pk >>> 6) &&& 1#8) <<< m.val) ^^^ b) &&& (1#8 <<< m.val))
  pk := P.pkStep r.pk

/-- One byte under the processed key `pk`: the accumulator starts at 0 and takes the eight positions in the
order of `PERM_BITSEQ` (R135, R138). -/
def permByte (P : Params) (pk b : Byte) : PermRegs := (bitSeq P).foldl (permBit P b) { pk := pk, acc := 0 }

/-- Consecutive bytes, the processed key running on from byte to byte (R135). -/
def permBytes (P : Params) : Byte → List Byte → List Byte
  | _, [] => []
  | pk, b :: bs => (permByte P pk b).acc :: permBytes P (permByte P pk b).pk bs

/-- The registers after consecutive bytes (R135). -/
def permRegsAfter (P : Params) : PermRegs → List Byte → PermRegs
  | r, [] => r
  | r, b :: bs => permRegsAfter P (permByte P r.pk b) bs

/-- `permute` on a buffer whose bytes all hold a value: its first `length` bytes, as far as they exist (R135,
R139). -/
def perm (P : Params) (B : List Byte) (length : Nat) (key : Byte) : List Byte :=
  permBytes P (pkInit P key) (B.take length) ++ B.drop length

/-- PERM on a buffer of the state. A skipped position does not step the processed key (R139, D23; log 11). -/
def permOn (P : Params) (b : Space) (length : Nat) (key : Byte) (s : State) : State :=
  let m := s.buf b
  let bytes := m.slice 0 (spanLen (bufSize b) 0 length)
  ({ s with perm := permRegsAfter P { s.perm with pk := pkInit P key } bytes }.setBuf b
    (m.writeRange 0 (permBytes P (pkInit P key) bytes))).loopsDone

/-- PERM driven on its own (R135). -/
def execPerm (b : Space) (length : Nat) (key : Byte) (s : State) : Host.Outcome State Fault Refusal :=
  if (s.buf b).holds 0 (spanLen (bufSize b) 0 length) then .next (permOn params b length key s)
  else .fault (.noValue b)

end Sys2Proof.Machine
end

