-- ==== Sys2Proof/Machine/DlBuilder.lean ====
section
/-! DEFINITION. The Deli16 frame builder (spec/46_deli16_builder.md): `DLBUILD`. -/

namespace Sys2Proof.Machine

open Sys2Proof.Config

/-- `TEMP` of the cascade (R166). -/
def dlTemp (l : Latches) (pb : Vector Byte 3) : Byte := pb[2] ^^^ low8 l.counter

/-- The eight payload bytes `PL[0]` to `PL[7]` (R166). -/
def dlPayload (l : Latches) (cc : Byte) (pb : Vector Byte 3) : List Byte :=
  let temp := dlTemp l pb
  let ctr := low8 l.counter
  [temp ^^^ l.ident[0], temp ^^^ pb[0], temp ^^^ page, temp ^^^ pb[1], temp ^^^ cc,
   l.ident[1] ^^^ pb[2] ^^^ ctr, pb[2] ^^^ l.ident[0], pb[0] ^^^ ctr]

/-- Step 1: the cascade (R166). -/
def dlCascade (s : State) : State :=
  { s with temp := dlTemp s.latches s.orch.pb }.setBuf .pl
    (Memory.ofBytes 0 (dlPayload s.latches s.orch.cc s.orch.pb))

/-- Step 2, first half: the CRC stream (R167, 30_encoding.md R82). -/
def dlStream (s : State) : State :=
  s.setBuf .stream (Memory.ofBytes 0 (dlCrcHead ++ (s.mem.pl.slice 0 8).map rev8))

/-- Step 3: the scratch fill; bytes 27 and 28 hold no value until step 5 (R169, D13). -/
def dlFill (s : State) : State :=
  s.setBuf .scratch
    (Memory.ofBytes 0 (List.replicate 13 0x00 ++ dlMarker ++ dlCrcHead ++ s.mem.pl.slice 0 8))

/-- Step 4: bytes 13 to 18 reversed in place (R170). -/
def dlReverse (s : State) : State :=
  s.setBuf .scratch (s.mem.scratch.writeRange 13 ((s.mem.scratch.slice 13 6).map rev8))

/-- Step 5: the CRC, little-endian (R171, 20_memory.md R54). -/
def dlStoreCrc (s : State) : State :=
  s.setBuf .scratch (s.mem.scratch.writeRange 27 [low8 s.crc.crcf, high8 s.crc.crcf])

/-- Step 6: the first permutation, on a copy of bytes 16 to 28, copied back (R172, 20_memory.md R64). -/
def dlFirstPass (P : Params) (s : State) : State :=
  let t := permOn P .sub 13 63 (s.setBuf .sub (Memory.ofBytes 0 (s.mem.scratch.slice 16 13)))
  t.setBuf .scratch (t.mem.scratch.writeRange 16 (t.mem.sub.slice 0 13))

/-- Step 7: the second permutation, over the whole scratch buffer (R173). -/
def dlSecondPass (P : Params) (s : State) : State := permOn P .scratch 29 37 s

/-- Step 8: the payload and the filler (R174, R175). -/
def dlEmit (s : State) : State := s.setBuf .dlout (Memory.ofBytes 0 (s.mem.scratch.slice 13 16 ++ dlFiller))

/-- DLBUILD up to the CRC store, which no permutation parameter reaches (R165 steps 1 to 5). -/
def dlAssemble (s : State) : State :=
  dlStoreCrc (dlReverse (dlFill (crc16rOn (dlStream (dlCascade s)))))

/-- DLBUILD: the eight steps in this order (R165, 70_reset_and_hazards.md R229). -/
def dlbuild (P : Params) (s : State) : State := dlEmit (dlSecondPass P (dlFirstPass P (dlAssemble s)))

/-- DLBUILD driven on its own (R165; log 7). -/
def execDlbuild (s : State) : Host.Outcome State Fault Refusal := .next (dlbuild params s)

end Sys2Proof.Machine
end

