-- ==== Sys2Proof/Machine/Cipher.lean ====
section
/-! DEFINITION. The cipher engine (spec/42_cipher.md): `BLKENC`, `DTAB`. -/

namespace Sys2Proof.Machine

open Sys2Proof.Config

/-- The amount subtracted from `SUM` each round (00_scope.md R10). -/
def delta : Word := 0x9e3779b9

/-- The load of a block: two words of it, four of `KEY`, `SUM_INIT` (R115, R116, R118; 20_memory.md R53). -/
def loadBlock (P : Params) (b : Vector Byte 8) : CipherRegs where
  v0 := le32 b[0] b[1] b[2] b[3]
  v1 := le32 b[4] b[5] b[6] b[7]
  sum := P.sumInit
  k0 := le32 P.key[0] P.key[1] P.key[2] P.key[3]
  k1 := le32 P.key[4] P.key[5] P.key[6] P.key[7]
  k2 := le32 P.key[8] P.key[9] P.key[10] P.key[11]
  k3 := le32 P.key[12] P.key[13] P.key[14] P.key[15]

/-- What a half round subtracts: the additions are inside the three terms, which XOR combines (R117). -/
def feistel (v sum ka kb : Word) : Word := ((v <<< 4) + ka) ^^^ (v + sum) ^^^ ((v >>> 5) + kb)

/-- One round: `V1` from the old `V0`, `V0` from the new `V1`, then `SUM` (R117). -/
def cipherRound (c : CipherRegs) : CipherRegs :=
  let v1 := c.v1 - feistel c.v0 c.sum c.k2 c.k3
  let v0 := c.v0 - feistel v1 c.sum c.k0 c.k1
  { c with v0 := v0, v1 := v1, sum := c.sum - delta }

/-- The registers after the 32 rounds (R115, R117). -/
@[irreducible] def runBlock (P : Params) (b : Vector Byte 8) : CipherRegs := cipherRound^[32] (loadBlock P b)

/-- The two words of the block, little-endian (R115, 20_memory.md R53). -/
def CipherRegs.bytes (c : CipherRegs) : Vector Byte 8 :=
  #v[c.v0.extractLsb' 0 8, c.v0.extractLsb' 8 8, c.v0.extractLsb' 16 8, c.v0.extractLsb' 24 8,
     c.v1.extractLsb' 0 8, c.v1.extractLsb' 8 8, c.v1.extractLsb' 16 8, c.v1.extractLsb' 24 8]

/-- `block_encrypt` (R115). -/
def blkenc (P : Params) (b : Vector Byte 8) : Vector Byte 8 := (runBlock P b).bytes

/-- The first 8 bytes of `SEED` (R119). -/
def seedLow (P : Params) : Vector Byte 8 :=
  #v[P.seed[0], P.seed[1], P.seed[2], P.seed[3], P.seed[4], P.seed[5], P.seed[6], P.seed[7]]

/-- The last 8 bytes of `SEED` (R119). -/
def seedHigh (P : Params) : Vector Byte 8 :=
  #v[P.seed[8], P.seed[9], P.seed[10], P.seed[11], P.seed[12], P.seed[13], P.seed[14], P.seed[15]]

/-- `derive_table`: the two halves of the seed transformed independently and concatenated (R119). -/
def dtab (P : Params) : Vector Byte 16 :=
  let lo := blkenc P (seedLow P)
  let hi := blkenc P (seedHigh P)
  #v[lo[0], lo[1], lo[2], lo[3], lo[4], lo[5], lo[6], lo[7],
     hi[0], hi[1], hi[2], hi[3], hi[4], hi[5], hi[6], hi[7]]

/-- The block that `BLK` holds. -/
def State.block (s : State) : Vector Byte 8 :=
  #v[s.mem.blk.get 0, s.mem.blk.get 1, s.mem.blk.get 2, s.mem.blk.get 3,
     s.mem.blk.get 4, s.mem.blk.get 5, s.mem.blk.get 6, s.mem.blk.get 7]

/-- The registers and `BLK` after a block transform of `b` (R115). -/
def blkencOf (P : Params) (b : Vector Byte 8) (s : State) : State :=
  { s with
    cipher := runBlock P b
    mem := { s.mem with blk := s.mem.blk.writeRange 0 (blkenc P b).toList } }.loopsDone

/-- DTAB on the state: two block transforms through `BLK`, then all 16 bytes of `T` (R119, 10_state.md R28). -/
def dtabOn (P : Params) (s : State) : State :=
  { blkencOf P (seedHigh P) (blkencOf P (seedLow P) s) with table := dtab P }

/-- BLKENC driven on its own: `BLK` is read, then overwritten (R115). -/
def execBlkenc (s : State) : Host.Outcome State Fault Refusal :=
  if s.mem.blk.holds 0 8 then .next (blkencOf params s.block s) else .fault (.noValue .blk)

/-- DTAB driven on its own (R119). -/
def execDtab (s : State) : Host.Outcome State Fault Refusal := .next (dtabOn params s)

end Sys2Proof.Machine
end

