-- ==== Sys2Proof/Machine/Subst.lean ====
section
/-! DEFINITION. The substitution-table lookup and XOR engine (spec/43_subst_xor.md): `OBF`. -/

namespace Sys2Proof.Machine

open Sys2Proof.Config

/-- A byte of the cipher table at a 4-bit index (10_state.md R28). -/
def tableAt (T : Vector Byte 16) (i : BitVec 4) : Byte := T[i.toFin]

/-- The 4-bit index `OI` of the selector byte (R125). -/
def selectorIndex (ob : Byte) : BitVec 4 := ob.extractLsb' 0 4

/-- `OBP`: the table byte at the XOR of the selector's two nibbles (R125, R127). -/
def selectorByte (T : Vector Byte 16) (ob : Byte) : Byte :=
  tableAt T (ob.extractLsb' 4 4 ^^^ selectorIndex ob)

/-- The new value of position `j` of a call: XOR first, then addition modulo 256; the additive index is
`(j + key) & 0xF` (R129, R130). -/
def obfByte (T : Vector Byte 16) (obp key : Byte) (j : Nat) (old : Byte) : Byte :=
  (old ^^^ obp) + tableAt T (BitVec.ofNat 4 (j + key.toNat))

/-- Position `start + j` of a call, skipped where the buffer has no such byte (R125, R128). -/
def obfPosition (T : Vector Byte 16) (obp key : Byte) (start : Nat) (B : List Byte) (j : Nat) : List Byte :=
  match B[start + j]? with
  | some old => B.set (start + j) (obfByte T obp key j old)
  | none => B

/-- The loop of OBF, `j` from 0 to `length` - 1 (R125). -/
def obfLoop (T : Vector Byte 16) (obp key : Byte) (start length : Nat) (B : List Byte) : List Byte :=
  (List.range length).foldl (obfPosition T obp key start) B

/-- `obfuscate` on a buffer whose bytes all hold a value; no meaning where the selector is outside the buffer
(R125, R126, R128). -/
def obf (T : Vector Byte 16) (B : List Byte) (start length : Nat) (key : Byte) : Option (List Byte) :=
  match B[start + 1]? with
  | some ob => some (obfLoop T (selectorByte T ob) key start length B)
  | none => none

/-- OBF on a buffer of the state: DTAB, the selector and `OBP`, then the loop over the positions inside the
buffer (R125). -/
def obfOn (P : Params) (b : Space) (start length : Nat) (key : Byte) (s : State) : State :=
  let t := dtabOn P s
  let m := t.buf b
  let ob := m.get (start + 1)
  let obp := selectorByte t.table ob
  let n := spanLen (bufSize b) start length
  ({ t with subst := { ob := ob, oi := selectorIndex ob, obp := obp } }.setBuf b
    (m.writeRange start (obfLoop t.table obp key 0 n (m.slice start n)))).loopsDone

/-- OBF driven on its own: refused where the selector is outside the buffer (R128, D18). -/
def execObf (b : Space) (start length : Nat) (key : Byte) (s : State) : Host.Outcome State Fault Refusal :=
  if bufSize b ≤ start + 1 then .refused .selectorOutOfRange
  else if (s.buf b).holds (start + 1) 1 && (s.buf b).holds start (spanLen (bufSize b) start length) then
    .next (obfOn params b start length key s)
  else .fault (.noValue b)

end Sys2Proof.Machine
end

