-- ==== Sys2Proof/Machine/HfBuilder.lean ====
section
/-! DEFINITION. The HF frame builder (spec/45_hf_builder.md): `HFBUILD`. -/

namespace Sys2Proof.Machine

open Sys2Proof.Config

/-- Bytes 0 to 13 of the HF core as loaded (R151, 30_encoding.md R79). -/
def hfLoaded (l : Latches) (cc : Byte) (pb : Vector Byte 3) : List Byte :=
  [0xFF, l.rnd, low8 l.counter, l.ident[0], l.ident[1] &&& 0xF0, 0x00, 0x00, cc, page, 0xFF, low8 l.counter,
   pb[0], pb[1], pb[2]]

/-- Step 1, the load; bytes 14 and 15 hold no value until step 3 (R151; log 14). -/
def hfLoad (s : State) : State := s.setBuf .hfcore (Memory.ofBytes 0 (hfLoaded s.latches s.orch.cc s.orch.pb))

/-- Step 2: the Pair marker, or the first obfuscation pass (R152, R153). -/
def hfParamRegion (P : Params) (s : State) : State :=
  if s.orch.isPair then s.setBuf .hfcore (s.mem.hfcore.writeRange 11 pairMarker) else obfOn P .hfcore 9 5 0xAA s

/-- Step 3: the CRC of bytes 0 to 12, stored little-endian at bytes 14 and 15 (R154, 20_memory.md R54). -/
def hfCheck (s : State) : State :=
  let t := crc16fOn .hfcore 0 13 0x0000 s
  t.setBuf .hfcore (t.mem.hfcore.writeRange 14 [low8 t.crc.crca, high8 t.crc.crca])

/-- Step 4: the second obfuscation pass, over the whole core (R155). -/
def hfWholePass (P : Params) (s : State) : State := obfOn P .hfcore 0 16 0x56 s

/-- Step 5: the frame (R156). -/
def hfEmit (s : State) : State :=
  s.setBuf .hfout (Memory.ofBytes 0 (hfFrameHead ++ s.mem.hfcore.slice 0 16 ++ hfFrameTail))

/-- HFBUILD: the five steps in this order (R150, 70_reset_and_hazards.md R229). -/
def hfbuild (P : Params) (s : State) : State := hfEmit (hfWholePass P (hfCheck (hfParamRegion P (hfLoad s))))

/-- HFBUILD driven on its own (R150; log 7). -/
def execHfbuild (s : State) : Host.Outcome State Fault Refusal := .next (hfbuild params s)

end Sys2Proof.Machine
end

