-- ==== Sys2Proof/Machine/Orchestrator.lean ====
section
/-! DEFINITION. The command orchestrator (spec/47_orchestrator.md): `ENCODE` and the five commands. -/

namespace Sys2Proof.Machine

open Sys2Proof.Config

/-- Step 1 of ENCODE: the control code of the command, and `IS_PAIR` (R185, R186, 10_state.md R25). -/
def lookupControl (P : Params) (c : Command) (s : State) : State :=
  { s with orch := { s.orch with cc := controlCode P c, isPair := isPairFlag (controlCode P c) } }

/-- Step 2 of ENCODE: for BRIGHT and CCT the clamped parameter and its block, for the others the zero block
(R185, R187, R188). -/
def loadParam (c : Command) (s : State) : State :=
  { s with
    orch :=
      if takesParam c then
        { s.orch with pcl := clamp s.latches.param, pb := paramBlock (clamp s.latches.param) }
      else { s.orch with pb := #v[0, 0, 0] } }

/-- ENCODE after acceptance, for a recognised command: lookup, parameter, the two builders, completion, in
this order (R185, R195). -/
def runCommand (P : Params) (c : Command) (s : State) : State :=
  completeEncode (dlbuild P (hfbuild P (loadParam c (lookupControl P c s))))

/-- ENCODE: acceptance, then UnknownCommand before anything else is computed, or the command (R185, R186). -/
def encodeOn (P : Params) (r : Request) (s : State) : State :=
  match Command.ofCode r.cmd with
  | some c => runCommand P c (acceptRequest r s)
  | none => raiseUnknownCommand (acceptRequest r s)

/-- PAIR: ENCODE with `cmd` = 0 (R190). -/
def execPair (o : ReqOperands) (s : State) : Host.Outcome State Fault Refusal :=
  .next (runCommand params .pair (acceptRequest ⟨Command.code .pair, o⟩ s))

/-- OFF: ENCODE with `cmd` = 1 (R191). -/
def execOff (o : ReqOperands) (s : State) : Host.Outcome State Fault Refusal :=
  .next (runCommand params .off (acceptRequest ⟨Command.code .off, o⟩ s))

/-- ON: ENCODE with `cmd` = 2 (R192). -/
def execOn (o : ReqOperands) (s : State) : Host.Outcome State Fault Refusal :=
  .next (runCommand params .on (acceptRequest ⟨Command.code .on, o⟩ s))

/-- BRIGHT: ENCODE with `cmd` = 3 (R193). -/
def execBright (o : ReqOperands) (s : State) : Host.Outcome State Fault Refusal :=
  .next (runCommand params .bright (acceptRequest ⟨Command.code .bright, o⟩ s))

/-- CCT: ENCODE with `cmd` = 4 (R194). -/
def execCct (o : ReqOperands) (s : State) : Host.Outcome State Fault Refusal :=
  .next (runCommand params .cct (acceptRequest ⟨Command.code .cct, o⟩ s))

/-- ENCODE driven with a request: any command code (R185). -/
def execEncode (r : Request) (s : State) : Host.Outcome State Fault Refusal := .next (encodeOn params r s)

end Sys2Proof.Machine
end

