-- ==== Sys2Proof/Machine/Dispatch.lean ====
section
/-! DEFINITION. One arm per operation: each is one call of its meaning. -/

namespace Sys2Proof.Machine

def exec (i : Instr) (s : State) : Host.Outcome State Fault Refusal :=
  match i with
  | .pair o => Sys2Proof.Machine.execPair o s
  | .off o => Sys2Proof.Machine.execOff o s
  | .on o => Sys2Proof.Machine.execOn o s
  | .bright o => Sys2Proof.Machine.execBright o s
  | .cct o => Sys2Proof.Machine.execCct o s
  | .crc16f b start length initial => Sys2Proof.Machine.execCrc16f b start length initial s
  | .crc16r => Sys2Proof.Machine.execCrc16r s
  | .rev8 b => Sys2Proof.Machine.execRev8 b s
  | .blkenc => Sys2Proof.Machine.execBlkenc s
  | .dtab => Sys2Proof.Machine.execDtab s
  | .obf b start length key => Sys2Proof.Machine.execObf b start length key s
  | .perm b length key => Sys2Proof.Machine.execPerm b length key s
  | .hfbuild => Sys2Proof.Machine.execHfbuild s
  | .dlbuild => Sys2Proof.Machine.execDlbuild s
  | .encode r => Sys2Proof.Machine.execEncode r s

end Sys2Proof.Machine
end

