-- ==== Sys2Proof/Machine/Step.lean ====
section
/-! DEFINITION. One step: the next event is presented, decoded and executed (spec/00_scope.md R8, R9). -/

namespace Sys2Proof.Machine

/-- One step. With nothing pending the core does nothing (00_scope.md R8, 60_exceptions.md R220). -/
def step (s : State) : Host.Outcome State Fault Refusal :=
  match s.events with
  | [] => .next s
  | e :: _ =>
    match e.presented with
    | none => quietEvent e s.popEvent
    | some p =>
      match decode p with
      | .ok i => exec i s.popEvent
      | .error r => rejected r s.popEvent

/-- `s` with a row's instruction as what is presented next (log 4, log 6). -/
def State.withFetchWord (s : State) (nbits w : Nat) : State :=
  { s.withZeroOperandBytes (tablePresented nbits w) with
    events := (tablePresented nbits w).event :: s.events }

end Sys2Proof.Machine
end

