-- ==== Sys2Proof/Safety.lean ====
section
/-! DEFINITION. What counts as a sound state of CORE, in the terms the statements use. -/

namespace Sys2Proof.Machine

open Sys2Proof.Config

/-- Every buffer is in canonical form and inside its length (spec/10_state.md R30, spec/20_memory.md R50). -/
abbrev State.memoryWf (s : State) : Prop :=
  s.mem.hfcore.wf 16 ∧ s.mem.stream.wf 11 ∧ s.mem.pl.wf 8 ∧ s.mem.scratch.wf 29 ∧ s.mem.sub.wf 13 ∧
    s.mem.blk.wf 8 ∧ s.mem.hfout.wf 26 ∧ s.mem.dlout.wf 26

/-- The fields of STATUS agree: DONE = 1 exactly in phase DONE, ERR = 1 exactly in phase ERR, the cause is
UnknownCommand exactly when ERR = 1 (10_state.md R23). -/
abbrev Status.consistent (t : Status) : Prop :=
  (t.done = true ↔ t.phase = .done) ∧ (t.err = true ↔ t.phase = .err) ∧ (t.cause = .unknownCommand ↔ t.err = true)

/-- Both frames hold 26 bytes, with the fixed bytes of the two formats (30_encoding.md R80, R83). -/
abbrev State.framesWhole (s : State) : Prop :=
  s.mem.hfout.holds 0 26 = true ∧ s.mem.hfout.slice 0 4 = hfFrameHead ∧ s.mem.hfout.slice 20 6 = hfFrameTail ∧
    s.mem.dlout.holds 0 26 = true ∧ s.mem.dlout.slice 16 10 = dlFiller

/-- The orchestrator's registers as an ENCODE leaves them: IS_PAIR is the test of CC (10_state.md R25), PB[0]
is 0 and PB[1] at most 3 (47_orchestrator.md R188). -/
abbrev OrchRegs.settled (o : OrchRegs) : Prop :=
  o.isPair = isPairFlag o.cc ∧ o.pb[0] = 0 ∧ o.pb[1].toNat ≤ 3

/-- The invariant of the machine: canonical buffers, consistent STATUS, and while DONE = 1 two whole frames,
settled orchestrator registers and the constant cipher table (10_state.md R23, R25, R28, R30, R31). -/
def State.Inv (s : State) : Prop :=
  s.memoryWf ∧ s.status.consistent ∧
    (s.status.done = true → s.framesWhole ∧ s.orch.settled ∧ s.table = dtab params)

end Sys2Proof.Machine
end

