-- ==== Sys2Proof/Certificates/Slice0/Obligations.lean ====
section
/-! DEFINITION. The statements about CORE. Each docstring names the rule or section of spec/ it rests on. -/

namespace Sys2Proof.Claims

open Sys2Proof.Machine Sys2Proof.Config

/-- Buffer `b` holds exactly the bytes `B`, from index 0 on, and no value elsewhere. -/
def holdsBytes (s : State) (b : Space) (B : List Byte) : Prop := ∀ i, (s.buf b).read i = B[i]?

/-- Every byte of memory reads as before, except those `stored` names. -/
def keepsBytes (s t : State) (stored : Space → Nat → Prop) : Prop :=
  ∀ c i, ¬ stored c i → (t.buf c).read i = (s.buf c).read i

/-- What no unit operation but ENCODE writes: the pending events, the latches, STATUS, and the orchestrator's
registers with the flag IS_PAIR. -/
def keepsControl (s t : State) : Prop :=
  t.events = s.events ∧ t.latches = s.latches ∧ t.status = s.status ∧ t.orch = s.orch

/-- The parameter block of a command (47_orchestrator.md R187, R188). -/
def blockOf (c : Command) (param : Half) : Vector Byte 3 :=
  if takesParam c then paramBlock (clamp param) else #v[0, 0, 0]

/-- The `n`-th key-stream bit of a key: bit 6 of the processed key after `n` steps (44_bitperm.md R140). -/
def keyBit (P : Params) (key : Byte) (n : Nat) : Bool := (P.pkStep^[n] (pkInit P key)).getLsbD 6

/-- The key-stream byte for position `p`: its bit `m` is the key-stream bit of the step at which position `m`
of byte `p` is visited (44_bitperm.md R140, `KS(key)[p]`). -/
def keyStream (P : Params) (key : Byte) (p : Nat) : Byte :=
  BitVec.ofFnLE fun m => keyBit P key (8 * p + (P.bitSeq.symm m).val)

/-- Driving select `sel` with the operand values `x` gives no operation: the decoder rejects it as `r`, and a
step that it is presented to is refused as `q`. -/
def refusedAs (sel : BitVec 4) (x : OpWires) (r : Reject) (q : Refusal) : Prop :=
  decode (.op sel x) = .error r ∧
  ∀ (s : State) (rest : List Event), s.events = .op sel x :: rest → step s = .refused q

/-- One step of a reflected CRC: bit 0 tested before the right shift, polynomial `0x8408` (the X-25 parameters
are general knowledge in the spec, 40_crc16.md R105). -/
def x25Step (c : Half) : Half := if c.getLsbD 0 then (c >>> 1) ^^^ 0x8408 else c >>> 1

/-- Fold one byte into a reflected CRC: XOR into its low byte, then eight steps. -/
def x25Byte (c : Half) (b : Byte) : Half := x25Step^[8] (c ^^^ b.setWidth 16)

/-- CRC16/X-25 of consecutive bytes, written on its own: initial value `0xFFFF`, final XOR `0xFFFF`
(40_crc16.md R105). -/
def x25 (bytes : List Byte) : Half := bytes.foldl x25Byte 0xFFFF ^^^ 0xFFFF

/-- The HF core of these latches, control code and parameter block: `core` is its bytes 0 to 13 after steps 1
and 2 (the load, then the Pair marker or OBF(9, 5, 0xAA)), `whole` its 16 bytes after steps 3 and 4 (the CRC of
bytes 0 to 12, then OBF(0, 16, 86)) (45_hf_builder.md R150 to R155). -/
def hfCoreIs (l : Latches) (isPair : Bool) (cc : Byte) (pb : Vector Byte 3) (core whole : List Byte) : Prop :=
  let loaded := [0xFF, l.rnd, low8 l.counter, l.ident[0], l.ident[1] &&& 0xF0, 0x00, 0x00, cc, 0x03, 0xFF,
    low8 l.counter, pb[0], pb[1], pb[2]]
  let crc := crc16f core 0 13 0x0000
  (if isPair = true then core = loaded.take 11 ++ [0xAA, 0x66, 0x55]
    else obf (dtab params) loaded 9 5 0xAA = some core) ∧
  obf (dtab params) (core ++ [low8 crc, high8 crc]) 0 16 86 = some whole

/-- The HF frame around a core (45_hf_builder.md R156). -/
def hfFrame (whole : List Byte) : List Byte :=
  [0x48, 0x46, 0x4B, 0x4A] ++ whole ++ [0x10, 0x11, 0x12, 0x13, 0x14, 0x15]

/-- The payload cascade of these latches, control code and parameter block (46_deli16_builder.md R166). -/
def deliPayload (l : Latches) (cc : Byte) (pb : Vector Byte 3) : List Byte :=
  let ctr := low8 l.counter
  let temp := pb[2] ^^^ ctr
  [temp ^^^ l.ident[0], temp ^^^ pb[0], temp ^^^ 3, temp ^^^ pb[1], temp ^^^ cc, l.ident[1] ^^^ pb[2] ^^^ ctr,
    pb[2] ^^^ l.ident[0], pb[0] ^^^ ctr]

/-- The CRC stream of a payload (46_deli16_builder.md R167). -/
def deliStream (payload : List Byte) : List Byte := [0xCC, 0x55, 0xAA] ++ payload.map rev8

/-- The Deli16 frame of a payload: byte `i` is scratch byte `13 + i` under the key-stream bytes of both passes,
then the filler (46_deli16_builder.md R168 to R175). -/
def deliFrame (payload : List Byte) : List Byte :=
  let crcf := crc16r (deliStream payload)
  let S := [0x8E, 0xF0, 0xAA, 0x33, 0xAA, 0x55] ++ payload ++ [low8 crcf, high8 crcf]
  (List.range 16).map (fun i => S.getD i 0 ^^^ (if i < 3 then 0 else keyStream params 63 (i - 3)) ^^^
    keyStream params 37 (13 + i)) ++ [0x10, 0x11, 0x12, 0x13, 0x14, 0x15, 0x16, 0x17, 0x18, 0x19]

end Sys2Proof.Claims

open Sys2Proof Sys2Proof.Machine Sys2Proof.Config Sys2Proof.Claims

/-! ## Encoding -/

/-- The bits of the request word are the fields of 30_encoding.md R71. -/
def Obligations.RequestWordFields : Prop :=
  ∀ r : Request,
    r.word.extractLsb' 0 3 = r.cmd ∧ r.word.extractLsb' 3 16 = r.ops.param ∧
    r.word.extractLsb' 19 16 = r.ops.counter ∧ r.word.extractLsb' 35 8 = r.ops.rnd ∧
    r.word.extractLsb' 43 8 = r.ops.ident[0] ∧ r.word.extractLsb' 51 8 = r.ops.ident[1] ∧
    r.word.extractLsb' 59 8 = r.ops.ident[2] ∧ r.word.extractLsb' 67 8 = r.ops.ident[3] ∧
    r.word.extractLsb' 75 8 = r.ops.ident[4]

/-- Decoding what the encoder presents gives back every well-formed operation, every operand at every value
(30_encoding.md R71, R72, R75). -/
def Obligations.DecodeEncodeRoundTrip : Prop :=
  ∀ i : Instr, i.wf = true → decode (encode i) = .ok i

/-- A request word that decodes is the word its operation encodes to: no bit of it is dropped. -/
def Obligations.EncodeDecodeRequest : Prop :=
  ∀ (w : BitVec 83) (i : Instr), decode (.req w) = .ok i → encode i = .req w

/-- The decoder gives only well-formed operations. -/
def Obligations.DecodedIsWellFormed : Prop :=
  ∀ (p : Presented) (i : Instr), decode p = .ok i → i.wf = true

/-- An operation at a buffer that 20_memory.md R51 does not give it is rejected by name, and a step that drives
it there is refused: CRC16F (select 0001), OBF (0110) and PERM (0111), whatever the other operand values
(log 8). -/
def Obligations.OtherBuffersRejected : Prop :=
  (∀ i : Instr, i.wf = false → ∃ b, decode (encode i) = .error (.bufferNotReached b)) ∧
  (∀ x : OpWires,
    (x.space ≠ .hfcore → x.space ≠ .stream →
      refusedAs 0b0001 x (.bufferNotReached x.space) (.bufferNotReached x.space)) ∧
    (x.space ≠ .hfcore → refusedAs 0b0110 x (.bufferNotReached x.space) (.bufferNotReached x.space)) ∧
    (x.space ≠ .sub → x.space ≠ .scratch →
      refusedAs 0b0111 x (.bufferNotReached x.space) (.bufferNotReached x.space)))

/-- `cmd` 5 to 7 are the only request encodings that select no command; every value of the other fields is
legal (30_encoding.md R84). The selects 0000 and 1011 to 1111 are the only unused ones: with every operand value
they decode to no operation and a step that drives one is refused (30_encoding.md R75, 93_implementation_defined.md
U8); each other select decodes to an operation, unless the buffer is one it does not reach (log 8). -/
def Obligations.OnlyUnknownCodesRejected : Prop :=
  (∀ w : BitVec 83,
    ((w.extractLsb' 0 3).toNat ≤ 4 → ∃ i, decode (.req w) = .ok i) ∧
    (5 ≤ (w.extractLsb' 0 3).toNat → decode (.req w) = .error (.unknownCommand (Request.ofWord w)))) ∧
  (∀ (sel : BitVec 4) (x : OpWires),
    (sel.toNat = 0 ∨ 11 ≤ sel.toNat → refusedAs sel x (.unusedSelect sel) (.unusedSelect sel)) ∧
    (1 ≤ sel.toNat → sel.toNat ≤ 10 →
      (∃ i, decode (.op sel x) = .ok i) ∨ decode (.op sel x) = .error (.bufferNotReached x.space)))

/-- Words written out from 30_encoding.md R71, R72 and R75, and selects that name no operation. -/
def Obligations.DecodesTableWords : Prop :=
  decodeTableWord 88 0x2AA219910880000080002 = some (.on ⟨0, 1, 0x00, #v[0x11, 0x22, 0x33, 0x44, 0x55]⟩) ∧
  decodeTableWord 88 0x2AA2199108AD000000000 = some (.pair ⟨0, 0, 0x5A, #v[0x11, 0x22, 0x33, 0x44, 0x55]⟩) ∧
  decodeTableWord 88 0x2AA21991089E7FFF81849 = some (.off ⟨777, 0xFFFF, 0x3C, #v[0x11, 0x22, 0x33, 0x44, 0x55]⟩) ∧
  decodeTableWord 88 0x2AA219910880000380005 = none ∧
  decodeTableWord 8 0b0100 = some .blkenc ∧ decodeTableWord 8 0b1001 = some .dlbuild ∧
  decodeTableWord 8 0b0000 = none ∧ decodeTableWord 8 0b1011 = none

/-! ## The step -/

/-- When the next event presents something that decodes to an operation, the step is that operation's
execution in the state with the event consumed. -/
def Obligations.StepRunsDecodedInstruction : Prop :=
  ∀ (s : State) (e : Event) (rest : List Event) (p : Presented) (i : Instr),
    s.events = e :: rest → e.presented = some p → decode p = .ok i →
      step s = exec i s.popEvent ∧ s.popEvent = { s with events := rest }

/-- A request on the ports with `start` = 1 and `rst` = 0 is run in any phase, and the core ends in phase DONE
for codes 0 to 4 and in phase ERR for the others: every ENCODE ends (10_state.md R20; 47_orchestrator.md R195). -/
def Obligations.EveryRequestEnds : Prop :=
  ∀ (s : State) (r : Request) (rest : List Event), s.events = .ports false true r :: rest →
    ∃ t, step s = .next t ∧ t.events = rest ∧
      t.latches = ⟨r.cmd, r.ops.param, r.ops.ident, r.ops.counter, r.ops.rnd⟩ ∧
      (r.cmd.toNat ≤ 4 → t.status = ⟨.done, true, false, .none⟩) ∧
      (5 ≤ r.cmd.toNat → t.status = ⟨.err, false, true, .unknownCommand⟩)

/-- Every step that goes on consumes exactly the event it was given. -/
def Obligations.StepConsumesOneEvent : Prop :=
  ∀ s t : State, step s = .next t → t.events = s.events.tail

/-- With nothing presented the core does nothing (60_exceptions.md R220); ports without `start` and `rst`
change nothing either. -/
def Obligations.NothingPresentedChangesNothing : Prop :=
  (∀ s : State, s.events = [] → step s = .next s) ∧
  (∀ (s : State) (r : Request) (rest : List Event), s.events = .ports false false r :: rest →
    step s = .next { s with events := rest })

/-- `rst` asserted, whatever `start` and the request are and in any phase: STATUS is cleared and no buffer,
the frames among them, holds a value (70_reset_and_hazards.md R225, 10_state.md R35; log 5 for `start`). -/
def Obligations.ResetClearsStatusAndFrames : Prop :=
  ∀ (s : State) (start : Bool) (r : Request) (rest : List Event), s.events = .ports true start r :: rest →
    ∃ t, step s = .next t ∧ t.events = rest ∧ t.status = ⟨.idle, false, false, .none⟩ ∧
      ∀ b i, (t.buf b).read i = none

/-- The values 10_state.md R35 gives for reset. -/
def Obligations.ResetState : Prop :=
  State.reset.status = ⟨.idle, false, false, .none⟩ ∧ (∀ b i, (State.reset.buf b).read i = none) ∧
  State.reset.events = []

/-! ## The exception -/

/-- A request with `cmd` 5, 6 or 7 takes UnknownCommand: the report, no frames, the latches as accepted, and
nothing else touched (60_exceptions.md R210, R206; 30_encoding.md R73); that the model's own `rev` stays and its
`events` lose the one presented is its choice (log 10, log 4). -/
def Obligations.UnknownCommandTaken : Prop :=
  ∀ (s : State) (r : Request) (rest : List Event), 5 ≤ r.cmd.toNat → s.events = .ports false true r :: rest →
    ∃ t, step s = .next t ∧ exec (.encode r) { s with events := rest } = .next t ∧
      t.status = ⟨.err, false, true, .unknownCommand⟩ ∧ t.status.cause.code = 1 ∧
      t.latches = ⟨r.cmd, r.ops.param, r.ops.ident, r.ops.counter, r.ops.rnd⟩ ∧
      holdsBytes t .hfout [] ∧ holdsBytes t .dlout [] ∧
      keepsBytes s t (fun c _ => c = .hfout ∨ c = .dlout) ∧
      t.orch = s.orch ∧ t.cipher = s.cipher ∧ t.table = s.table ∧ t.crc = s.crc ∧ t.subst = s.subst ∧
      t.perm = s.perm ∧ t.temp = s.temp ∧ t.loops = s.loops ∧ t.rev = s.rev ∧ t.events = rest

/-- The error state ends when the next request is accepted, which is processed on its own merits: a recognised
command clears it, the same unknown command raises it again, and what either leaves is what it leaves from the
same state without the error; reset clears it too (60_exceptions.md R211). -/
def Obligations.NextAcceptanceEndsError : Prop :=
  ∀ s : State, s.status = ⟨.err, false, true, .unknownCommand⟩ →
    (∀ (c : Command) (o : ReqOperands), ∃ t, exec (c.instr o) s = .next t ∧
      t.status = ⟨.done, true, false, .none⟩) ∧
    (∀ r : Request, 5 ≤ r.cmd.toNat → ∃ t, exec (.encode r) s = .next t ∧
      t.status = ⟨.err, false, true, .unknownCommand⟩) ∧
    (∀ r : Request, exec (.encode r) s = exec (.encode r) { s with status := ⟨.idle, false, false, .none⟩ }) ∧
    (resetCore s).status = ⟨.idle, false, false, .none⟩

/-! ## What the host reads -/

/-- While DONE = 0 the frames hold no value for the host: reading `hf` or `dl` is refused, after an error as
after reset (10_state.md R31, 93_implementation_defined.md U2; log 13). -/
def Obligations.FramesUnreadableUnlessDone : Prop :=
  ∀ (s : State) (rest : List Event) (port : OutPort), s.status.done = false →
    s.events = .read port :: rest → (port = .hf ∨ port = .dl) → step s = .refused .framesNotValid

/-- In a state of the invariant with DONE = 1, both frames read as 26 bytes, and no read changes anything
(20_memory.md R52, 30_encoding.md R80, R83). -/
def Obligations.FramesReadableWhenDone : Prop :=
  ∀ s : State, s.Inv → s.status.done = true →
    (∃ hf dl : List Byte, s.readPort .hf = .ok (.frame hf) ∧ s.readPort .dl = .ok (.frame dl) ∧
      holdsBytes s .hfout hf ∧ holdsBytes s .dlout dl ∧ hf.length = 26 ∧ dl.length = 26) ∧
    (∀ (port : OutPort) (rest : List Event), s.events = .read port :: rest →
      step s = .next { s with events := rest })

/-- What the host reads at the ports other than the frames, in any phase: `phase` reads 0, 1 or 2 for IDLE,
DONE and ERR, `done` and `err` their bits, `cause` 0 or, for UnknownCommand, 1; such a read goes on in every
state, while DONE = 0 as well, and changes nothing (10_state.md R20, R23; the event of the read is the model's
own, log 4). -/
def Obligations.StatusReadInAnyPhase : Prop :=
  ∀ s : State,
    (s.status.phase = .idle → s.readPort .phase = .ok (.code 0)) ∧
    (s.status.phase = .done → s.readPort .phase = .ok (.code 1)) ∧
    (s.status.phase = .err → s.readPort .phase = .ok (.code 2)) ∧
    s.readPort .done = .ok (.bit s.status.done) ∧ s.readPort .err = .ok (.bit s.status.err) ∧
    (s.status.cause = .none → s.readPort .cause = .ok (.code 0)) ∧
    (s.status.cause = .unknownCommand → s.readPort .cause = .ok (.code 1)) ∧
    (∀ (port : OutPort) (rest : List Event), port ≠ .hf → port ≠ .dl → s.events = .read port :: rest →
      step s = .next { s with events := rest })

/-! ## Unit operations: CRC16 -/

/-- CRC16F on a buffer it is given: where the bytes in range hold values it completes, CRCA is the CRC of the
range cut at the end of the buffer, and nothing else is written but the loop counters (40_crc16.md R100,
20_memory.md R60, R51; log 9; the model's own `rev`: log 10). -/
def Obligations.Crc16fResult : Prop :=
  ∀ (s : State) (b : Space) (start length : Nat) (initial : Half) (B : List Byte),
    (Instr.crc16f b start length initial).wf = true → B.length = bufSize b →
    (∀ i, start ≤ i → i < start + length → i < bufSize b → (s.buf b).read i = B[i]?) →
    ∃ t, exec (.crc16f b start length initial) s = .next t ∧
      t.crc = { s.crc with crca := crc16f B start length initial } ∧
      keepsControl s t ∧ keepsBytes s t (fun _ _ => False) ∧ t.cipher = s.cipher ∧ t.table = s.table ∧
      t.subst = s.subst ∧ t.perm = s.perm ∧ t.temp = s.temp ∧ t.rev = s.rev

/-- A range that holds a byte without a value stops CRC16F, CRC16R, BLKENC, OBF and PERM with the fault of that
buffer; for OBF, whose selector is inside the buffer, so does the selector byte at `start + 1`, which it reads
whatever the length (10_state.md R27, R35; log 2). -/
def Obligations.UnwrittenOperandFaults : Prop :=
  ∀ (s : State) (i : Nat),
    (∀ (b : Space) (start length : Nat) (initial : Half), start ≤ i → i < start + length → i < bufSize b →
      (s.buf b).read i = none → exec (.crc16f b start length initial) s = .fault (.noValue b)) ∧
    (i < 11 → (s.buf .stream).read i = none → exec .crc16r s = .fault (.noValue .stream)) ∧
    (i < 8 → (s.buf .blk).read i = none → exec .blkenc s = .fault (.noValue .blk)) ∧
    (∀ (b : Space) (start length : Nat) (key : Byte), start + 1 < bufSize b →
      (i = start + 1 ∨ (start ≤ i ∧ i < start + length)) → i < bufSize b →
      (s.buf b).read i = none → exec (.obf b start length key) s = .fault (.noValue b)) ∧
    (∀ (b : Space) (length : Nat) (key : Byte), i < length → i < bufSize b →
      (s.buf b).read i = none → exec (.perm b length key) s = .fault (.noValue b))

/-- Chaining: the CRC of a range inside the buffer is the CRC of its second part seeded with the CRC of its
first (40_crc16.md R102). -/
def Obligations.CrcChains : Prop :=
  ∀ (B : List Byte) (start n1 n2 : Nat) (initial : Half),
    crc16f B start (n1 + n2) initial = crc16f B (start + n1) n2 (crc16f B start n1 initial)

/-- A byte index at or beyond the end contributes nothing; a start beyond the end gives the initial value
(20_memory.md R60). -/
def Obligations.CrcCutsAtEnd : Prop :=
  ∀ (B : List Byte) (start length : Nat) (initial : Half),
    crc16f B start length initial = crc16f B start (min length (B.length - start)) initial ∧
    (B.length ≤ start → crc16f B start length initial = initial)

/-- The step of the CRC engine: bit 15 tested before the shift, the polynomial 0x1021 XORed after it (40_crc16.md
R101, whose form is general knowledge in the spec); CRC16F starts at its initial value, and each byte in range
enters at the high byte and takes eight steps (R100); and the generator with reversed input, seeded with 0xFFFF, and the output stage is CRC16/X-25 of the bytes
themselves, which is written here on its own (R105). -/
def Obligations.CrcStepAndReflection : Prop :=
  (∀ a : Half, (crcStep a).toNat =
    if 2 ^ 15 ≤ a.toNat then (2 * a.toNat % 2 ^ 16) ^^^ 0x1021 else 2 * a.toNat) ∧
  (∀ (B : List Byte) (start : Nat) (initial : Half), crc16f B start 0 initial = initial ∧
    ∀ (n : Nat) (b : Byte), B[start + n]? = some b →
      crc16f B start (n + 1) initial = crcStep^[8] (crc16f B start n initial ^^^ (b ++ 0#8))) ∧
  (∀ B : List Byte, crc16r (B.map rev8) = x25 B)

/-- The output stage: bit `i` of the accumulator becomes, inverted, bit `15 - i` of the result (40_crc16.md
R104). -/
def Obligations.RefloutReversesAndInverts : Prop :=
  ∀ (a : Half) (i : Nat), i < 16 → (reflout a).getLsbD (15 - i) = !a.getLsbD i

/-- CRC16R on `STREAM`: CRCA is the forward CRC from 0xFFFF, CRCF its output stage (40_crc16.md R103; the model's
own `rev` left alone: log 10). -/
def Obligations.Crc16rResult : Prop :=
  ∀ (s : State) (B : List Byte), B.length = 11 → (∀ i, i < 11 → (s.buf .stream).read i = B[i]?) →
    ∃ t, exec .crc16r s = .next t ∧ t.crc.crca = crc16f B 0 11 0xFFFF ∧ t.crc.crcf = reflout (crc16f B 0 11 0xFFFF) ∧
      keepsControl s t ∧ keepsBytes s t (fun _ _ => False) ∧ t.cipher = s.cipher ∧ t.table = s.table ∧
      t.subst = s.subst ∧ t.perm = s.perm ∧ t.temp = s.temp ∧ t.rev = s.rev

/-! ## Unit operations: REV8 -/

/-- REV8: bit `i` of the input becomes bit `7 - i` of the result, for all 256 inputs; nothing else is written
but the loop counters (41_bitrev.md R110; the result register is the model's own, log 10; log 9). -/
def Obligations.Rev8Result : Prop :=
  ∀ (s : State) (b : Byte), ∃ t, exec (.rev8 b) s = .next t ∧
    (∀ i, i < 8 → t.rev.getLsbD (7 - i) = b.getLsbD i) ∧
    keepsControl s t ∧ keepsBytes s t (fun _ _ => False) ∧ t.cipher = s.cipher ∧ t.table = s.table ∧
    t.crc = s.crc ∧ t.subst = s.subst ∧ t.perm = s.perm ∧ t.temp = s.temp

/-- REV8 is an involution, hence a bijection on bytes (41_bitrev.md R111). -/
def Obligations.Rev8Involution : Prop :=
  (∀ b : Byte, rev8 (rev8 b) = b) ∧ Function.Bijective rev8

/-! ## Unit operations: the cipher engine -/

/-- BLKENC: where `BLK` holds eight bytes it completes; the registers are those of 32 rounds from the
little-endian load, and `BLK` is the two words stored little-endian (42_cipher.md R115, R117; 20_memory.md
R53; the model's own `rev` left alone: log 10). -/
def Obligations.BlkencResult : Prop :=
  ∀ (s : State) (B : Vector Byte 8), (∀ i : Fin 8, (s.buf .blk).read i = some B[i]) →
    ∃ t, exec .blkenc s = .next t ∧ t.cipher = cipherRound^[32] (loadBlock params B) ∧
      (∀ k, k < 4 → (t.buf .blk).read k = some (t.cipher.v0.extractLsb' (8 * k) 8) ∧
        (t.buf .blk).read (4 + k) = some (t.cipher.v1.extractLsb' (8 * k) 8)) ∧
      keepsControl s t ∧ keepsBytes s t (fun c i => c = .blk ∧ i < 8) ∧ t.table = s.table ∧ t.crc = s.crc ∧
      t.subst = s.subst ∧ t.perm = s.perm ∧ t.temp = s.temp ∧ t.rev = s.rev

/-- The load and the round, written out: V0 and V1 are the two little-endian words of the block; a round takes
V1 first from the old V0 with K2 and K3, then V0 from the new V1 with K0 and K1, both under the same SUM, which
is decremented last; after `r` rounds the key words are those of `KEY`, little-endian, and SUM is SUM_INIT less
`r` times DELTA; the output of the transform is V0 and V1 after 32 rounds, least significant bytes first
(42_cipher.md R115 to R118; 20_memory.md R53). -/
def Obligations.RoundSumAndKeys : Prop :=
  (∀ (P : Params) (B : Vector Byte 8),
    (loadBlock P B).v0 = B[3] ++ B[2] ++ B[1] ++ B[0] ∧ (loadBlock P B).v1 = B[7] ++ B[6] ++ B[5] ++ B[4]) ∧
  (∀ c : CipherRegs, let d := cipherRound c
    d.v1 = c.v1 - (((c.v0 <<< 4) + c.k2) ^^^ (c.v0 + c.sum) ^^^ ((c.v0 >>> 5) + c.k3)) ∧
    d.v0 = c.v0 - (((d.v1 <<< 4) + c.k0) ^^^ (d.v1 + c.sum) ^^^ ((d.v1 >>> 5) + c.k1)) ∧
    d.sum = c.sum - 0x9e3779b9 ∧ d.k0 = c.k0 ∧ d.k1 = c.k1 ∧ d.k2 = c.k2 ∧ d.k3 = c.k3) ∧
  (∀ (P : Params) (B : Vector Byte 8) (k : Fin 4), let c := cipherRound^[32] (loadBlock P B)
    (blkenc P B)[k.val] = c.v0.extractLsb' (8 * k) 8 ∧ (blkenc P B)[4 + k.val] = c.v1.extractLsb' (8 * k) 8) ∧
  ∀ (P : Params) (B : Vector Byte 8) (r : Nat),
    let c := cipherRound^[r] (loadBlock P B)
    c.sum = P.sumInit - BitVec.ofNat 32 r * 0x9e3779b9 ∧
    c.k0 = P.key[3] ++ P.key[2] ++ P.key[1] ++ P.key[0] ∧ c.k1 = P.key[7] ++ P.key[6] ++ P.key[5] ++ P.key[4] ∧
    c.k2 = P.key[11] ++ P.key[10] ++ P.key[9] ++ P.key[8] ∧ c.k3 = P.key[15] ++ P.key[14] ++ P.key[13] ++ P.key[12]

/-- The block transform is a bijection on blocks, whatever the parameters: no two blocks give the same output
(from 42_cipher.md R115, R117: each half round subtracts what the other half decides). -/
def Obligations.BlkencInjective : Prop :=
  ∀ (P : Params) (a b : Vector Byte 8), blkenc P a = blkenc P b → a = b

/-- DTAB: from every state the same table, the two seed halves transformed independently and concatenated
(42_cipher.md R119, R120; the model's own `rev` left alone: log 10). -/
def Obligations.DtabResult : Prop :=
  ∀ s : State, ∃ t, exec .dtab s = .next t ∧ t.table = dtab params ∧
    (∀ i : Fin 8, t.table[i.val] = (blkenc params (seedLow params))[i] ∧
      t.table[8 + i.val] = (blkenc params (seedHigh params))[i]) ∧
    (∀ i : Fin 8, (seedLow params)[i] = params.seed[i.val] ∧ (seedHigh params)[i] = params.seed[8 + i.val]) ∧
    keepsControl s t ∧ keepsBytes s t (fun c i => c = .blk ∧ i < 8) ∧ t.crc = s.crc ∧ t.subst = s.subst ∧
    t.perm = s.perm ∧ t.temp = s.temp ∧ t.rev = s.rev

/-! ## Unit operations: OBF -/

/-- OBF: where the selector and the bytes in range hold values it completes. The selector is read before any
write; each position inside the buffer becomes (old XOR OBP) + T[(j + key) & 0xF]; every other byte is as it
was, but for `BLK`, through which DTAB runs (43_subst_xor.md R125 to R130; the model's own `rev` left alone:
log 10). -/
def Obligations.ObfResult : Prop :=
  ∀ (s : State) (b : Space) (start length : Nat) (key : Byte),
    (Instr.obf b start length key).wf = true → start + 1 < bufSize b →
    (∀ i, (start ≤ i ∧ i < start + length) ∨ i = start + 1 → i < bufSize b → ((s.buf b).read i).isSome = true) →
    ∃ t ob, exec (.obf b start length key) s = .next t ∧ (s.buf b).read (start + 1) = some ob ∧
      t.table = dtab params ∧
      t.subst.ob = ob ∧ t.subst.oi = ob.extractLsb' 0 4 ∧
      t.subst.obp = (dtab params)[((ob.extractLsb' 4 4) ^^^ (ob.extractLsb' 0 4)).toFin] ∧
      (∀ j old, j < length → start + j < bufSize b → (s.buf b).read (start + j) = some old →
        (t.buf b).read (start + j) =
          some ((old ^^^ t.subst.obp) + (dtab params)[(j + key.toNat) % 16]'(Nat.mod_lt _ (by decide)))) ∧
      keepsBytes s t (fun c i => (c = b ∧ start ≤ i ∧ i < start + length ∧ i < bufSize b) ∨ (c = .blk ∧ i < 8)) ∧
      keepsControl s t ∧ t.crc = s.crc ∧ t.perm = s.perm ∧ t.temp = s.temp ∧ t.rev = s.rev

/-- OBF whose selector is outside its buffer has no meaning: it is refused (43_subst_xor.md R128). -/
def Obligations.ObfSelectorOutsideRefused : Prop :=
  ∀ (s : State) (b : Space) (start length : Nat) (key : Byte), bufSize b ≤ start + 1 →
    exec (.obf b start length key) s = .refused .selectorOutOfRange

/-- OBP depends on the selector byte only through the XOR of its two nibbles (43_subst_xor.md R127). -/
def Obligations.SelectorByNibbleXor : Prop :=
  ∀ (T : Vector Byte 16) (a b : Byte),
    a.extractLsb' 4 4 ^^^ a.extractLsb' 0 4 = b.extractLsb' 4 4 ^^^ b.extractLsb' 0 4 →
      selectorByte T a = selectorByte T b

/-- `obfuscate` as a function on byte buffers, position by position: no meaning where the selector is outside the
buffer; else OBP is the table byte at the XOR of the selector's nibbles, each position in range that exists
becomes (old XOR OBP) + T[(j + key) & 0xF] for its place `j` in the call, and every other byte stays
(43_subst_xor.md R125 to R130). -/
def Obligations.ObfPositions : Prop :=
  ∀ (T : Vector Byte 16) (B : List Byte) (start length : Nat) (key : Byte),
    (B.length ≤ start + 1 → obf T B start length key = none) ∧
    (∀ ob, B[start + 1]? = some ob → ∃ C, obf T B start length key = some C ∧ C.length = B.length ∧
      ∀ p, C[p]? = (B[p]?).map fun old =>
        if start ≤ p ∧ p < start + length then
          (old ^^^ T[((ob.extractLsb' 4 4) ^^^ (ob.extractLsb' 0 4)).toFin]) +
            T[(p - start + key.toNat) % 16]'(Nat.mod_lt _ (by decide))
        else old)

/-- The substitution as a function on byte buffers: positions outside the buffer are skipped, no byte is added
or lost, and for a fixed table, selector, key and length two buffers that differ are still different afterwards
(43_subst_xor.md R128, R129). -/
def Obligations.ObfLoopInjective : Prop :=
  ∀ (T : Vector Byte 16) (obp key : Byte) (start length : Nat) (B C : List Byte),
    (obfLoop T obp key start length B).length = B.length ∧
    (B.length = C.length → obfLoop T obp key start length B = obfLoop T obp key start length C → B = C)

/-! ## Unit operations: PERM -/

/-- What the open parameters of the permutation engine satisfy, whatever they are: PK_INIT reads only bits 0 to
5 of its argument and its result has bit 0 set; PERM_BITSEQ visits each position once (44_bitperm.md R136,
R138). -/
def Obligations.PermParameterConstraints : Prop :=
  ∀ P : Params,
    (∀ key : Byte, pkInit P key = pkInit P (key &&& 0x3F) ∧ (pkInit P key).getLsbD 0 = true) ∧
    (bitSeq P).Perm (List.finRange 8)

/-- PERM is a mask: byte `p` of the first `length` bytes is XORed with the key-stream byte of its position, and
nothing else happens, for every instantiation of the three open parameters (44_bitperm.md R140). -/
def Obligations.PermIsKeyStreamMask : Prop :=
  ∀ (P : Params) (B : List Byte) (length : Nat) (key : Byte) (p : Nat),
    (perm P B length key)[p]? =
      (B[p]?).map fun b => if p < length then b ^^^ keyStream P key p else b

/-- PERM on a buffer of the state: where the bytes in range hold values it completes, and each of the first
`length` bytes that exist is XORed with its key-stream byte (44_bitperm.md R135, R139, R140; the model's own
`rev` left alone: log 10). -/
def Obligations.PermResult : Prop :=
  ∀ (s : State) (b : Space) (length : Nat) (key : Byte),
    (Instr.perm b length key).wf = true →
    (∀ i, i < length → i < bufSize b → ((s.buf b).read i).isSome = true) →
    ∃ t, exec (.perm b length key) s = .next t ∧
      (∀ i, i < length → i < bufSize b →
        (t.buf b).read i = ((s.buf b).read i).map fun old => old ^^^ keyStream params key i) ∧
      keepsBytes s t (fun c i => c = b ∧ i < length ∧ i < bufSize b) ∧ keepsControl s t ∧
      t.cipher = s.cipher ∧ t.table = s.table ∧ t.crc = s.crc ∧ t.subst = s.subst ∧ t.temp = s.temp ∧ t.rev = s.rev

/-- The two passes of the Deli16 builder commute, for every instantiation of the three open parameters: the
first on bytes 16 to 28 from the start of its own key stream, the second on all 29 (44_bitperm.md R142,
90_conflicts.md C2). -/
def Obligations.PermPassesCommute : Prop :=
  ∀ (P : Params) (S : List Byte), S.length = 29 →
    let sub := fun B : List Byte => B.take 16 ++ perm P (B.drop 16) 13 63
    perm P (sub S) 29 37 = sub (perm P S 29 37)

/-- PERM with the same length and key applied twice restores the buffer, and a shorter PERM agrees with a longer
one on its bytes (44_bitperm.md R140). -/
def Obligations.PermTwiceRestores : Prop :=
  ∀ (P : Params) (B : List Byte) (n k : Nat) (key : Byte),
    perm P (perm P B n key) n key = B ∧ (perm P B (n + k) key).take n = (perm P B n key).take n

/-! ## The HF frame builder -/

/-- HFBUILD from every state: the frame is that of the five steps in order, on the core as loaded: the Pair
marker or OBF(9, 5, 0xAA); the CRC of bytes 0 to 12; OBF(0, 16, 86); the fixed head and tail (45_hf_builder.md
R150 to R156; driven on its own: log 7; the model's own `rev` left alone: log 10). -/
def Obligations.HfbuildResult : Prop :=
  ∀ s : State, ∃ (t : State) (core whole : List Byte), exec .hfbuild s = .next t ∧
    hfCoreIs s.latches s.orch.isPair s.orch.cc s.orch.pb core whole ∧ whole.length = 16 ∧
    t.crc = { s.crc with crca := crc16f core 0 13 0x0000 } ∧
    holdsBytes t .hfcore whole ∧ holdsBytes t .hfout (hfFrame whole) ∧
    keepsBytes s t (fun c _ => c = .hfcore ∨ c = .hfout ∨ c = .blk) ∧ keepsControl s t ∧
    t.perm = s.perm ∧ t.temp = s.temp ∧ t.rev = s.rev

/-- Step 1: the loaded core, byte by byte; bytes 14 and 15 hold no value (45_hf_builder.md R151). -/
def Obligations.HfLoadBytes : Prop :=
  ∀ s : State, holdsBytes (hfLoad s) .hfcore
    [0xFF, s.latches.rnd, low8 s.latches.counter, s.latches.ident[0], s.latches.ident[1] &&& 0xF0, 0x00, 0x00,
     s.orch.cc, 0x03, 0xFF, low8 s.latches.counter, s.orch.pb[0], s.orch.pb[1], s.orch.pb[2]]

/-- Step 2 for the Pair code: bytes 11 to 13 are the marker, every other byte is as loaded, and no obfuscation
pass runs (45_hf_builder.md R152). -/
def Obligations.PairMarkerReplacesFirstPass : Prop :=
  ∀ (P : Params) (s : State), s.orch.isPair = true →
    let t := hfParamRegion P (hfLoad s)
    (t.buf .hfcore).read 11 = some 0xAA ∧ (t.buf .hfcore).read 12 = some 0x66 ∧
    (t.buf .hfcore).read 13 = some 0x55 ∧ (t.buf .hfcore).read 9 = some 0xFF ∧
    (t.buf .hfcore).read 10 = some (low8 s.latches.counter) ∧
    keepsBytes (hfLoad s) t (fun c i => c = .hfcore ∧ 11 ≤ i ∧ i ≤ 13) ∧
    t.cipher = s.cipher ∧ t.table = s.table ∧ t.subst = s.subst

/-- Step 3: recomputing the CRC over the first 13 bytes of the core before the final obfuscation gives the
field at bytes 14 and 15, low byte first; no other byte is touched (45_hf_builder.md R154, 20_memory.md R54). -/
def Obligations.HfCrcFieldRecomputes : Prop :=
  ∀ (s : State) (B : List Byte), B.length = 13 → (∀ i, i < 13 → (s.buf .hfcore).read i = B[i]?) →
    let t := hfCheck s
    (t.buf .hfcore).read 14 = some ((crc16f B 0 13 0).extractLsb' 0 8) ∧
    (t.buf .hfcore).read 15 = some ((crc16f B 0 13 0).extractLsb' 8 8) ∧
    keepsBytes s t (fun c i => c = .hfcore ∧ (i = 14 ∨ i = 15))

/-! ## The Deli16 frame builder -/

/-- DLBUILD from every state: the payload cascade, the reflected CRC of the stream, the scratch buffer and its
two passes; frame byte `i` is scratch byte `13 + i` under the key-stream bytes of both passes, then the filler
(46_deli16_builder.md R165 to R176; driven on its own: log 7; the model's own `rev` left alone: log 10). -/
def Obligations.DlbuildResult : Prop :=
  ∀ s : State, ∃ t, exec .dlbuild s = .next t ∧
    (let pl := deliPayload s.latches s.orch.cc s.orch.pb
     holdsBytes t .pl pl ∧ holdsBytes t .stream (deliStream pl) ∧
     t.temp = s.orch.pb[2] ^^^ low8 s.latches.counter ∧ t.crc.crcf = crc16r (deliStream pl) ∧
     holdsBytes t .dlout (deliFrame pl)) ∧
    keepsBytes s t (fun c _ => c = .pl ∨ c = .stream ∨ c = .scratch ∨ c = .sub ∨ c = .dlout) ∧
    keepsControl s t ∧ t.cipher = s.cipher ∧ t.table = s.table ∧ t.subst = s.subst ∧ t.rev = s.rev

/-- Before the permutation the CRC stream is the bit reversal, byte for byte, of scratch bytes 16 to 26
(40_crc16.md R105), CRCF is the CRC16/X-25 of those 11 scratch bytes as stored, and the scratch buffer is whole.
X-25 is written here on its own; its parameters are general knowledge in the spec (R105). -/
def Obligations.StreamIsReversedScratch : Prop :=
  ∀ s : State, let t := dlAssemble s
    (∀ k, k < 11 → (t.buf .stream).read k = ((t.buf .scratch).read (16 + k)).map rev8) ∧
    (∃ R : List Byte, R.length = 11 ∧ (∀ k, k < 11 → (t.buf .scratch).read (16 + k) = R[k]?) ∧
      t.crc.crcf = x25 R) ∧
    (∀ i, ((t.buf .scratch).read i).isSome = true ↔ i < 29) ∧
    (t.buf .scratch).read 27 = some (t.crc.crcf.extractLsb' 0 8) ∧
    (t.buf .scratch).read 28 = some (t.crc.crcf.extractLsb' 8 8)

/-- The first six bytes of the Deli16 frame are the same after every DLBUILD, from whatever state
(46_deli16_builder.md R176). -/
def Obligations.DlFirstSixBytesConstant : Prop :=
  ∀ s s' t t' : State, exec .dlbuild s = .next t → exec .dlbuild s' = .next t' →
    ∀ i, i < 6 → (t.buf .dlout).read i = (t'.buf .dlout).read i

/-! ## The commands -/

/-- PAIR, OFF, ON, BRIGHT, CCT and ENCODE with their codes complete from every state: the latches are the
request's, the control code and IS_PAIR are the command's, the parameter block is that of the clamped parameter
for BRIGHT and CCT and zero for the others, the two frames are those of HFBUILD and DLBUILD (HfbuildResult,
DlbuildResult) for these latches, this code and this block, both become valid together, and STATUS reports DONE
(47_orchestrator.md R185 to R194). That the model's own `events` and `rev` stay is its choice (log 4, log 10). -/
def Obligations.CommandsComplete : Prop :=
  ∀ (c : Command) (o : ReqOperands) (s : State),
    let l : Latches := ⟨c.code, o.param, o.ident, o.counter, o.rnd⟩
    let cc := controlCode params c
    let pb := blockOf c o.param
    ∃ (t : State) (core whole : List Byte),
      exec (c.instr o) s = .next t ∧ exec (.encode ⟨c.code, o⟩) s = .next t ∧
      t.latches = l ∧ t.orch.cc = cc ∧ (t.orch.isPair = true ↔ cc = 0xB4) ∧
      t.orch.pb = pb ∧ t.orch.pcl = (if takesParam c then clamp o.param else s.orch.pcl) ∧
      hfCoreIs l (decide (cc = 0xB4)) cc pb core whole ∧
      holdsBytes t .hfcore whole ∧ holdsBytes t .hfout (hfFrame whole) ∧
      holdsBytes t .dlout (deliFrame (deliPayload l cc pb)) ∧
      t.status = ⟨.done, true, false, .none⟩ ∧ t.framesWhole ∧ t.table = dtab params ∧
      t.events = s.events ∧ t.rev = s.rev

/-- For BRIGHT and CCT the clamp is to [1, 1000], unsigned, and the block is 0, the high byte, the low byte of
the clamped value; for PAIR, OFF and ON the block is zero, whatever the parameter, and PCL is not written
(47_orchestrator.md R187, R188; 20_memory.md R55). -/
def Obligations.ParameterClampAndBlock : Prop :=
  ∀ (o : ReqOperands) (s : State) (i : Instr),
    (i = .bright o ∨ i = .cct o →
      ∃ t, exec i s = .next t ∧
        t.orch.pcl.toNat =
          (if o.param.toNat < 1 then 1 else if 1000 < o.param.toNat then 1000 else o.param.toNat) ∧
        t.orch.pb[0] = 0 ∧ t.orch.pb[1].toNat = t.orch.pcl.toNat / 256 ∧ t.orch.pb[1].toNat ≤ 3 ∧
        t.orch.pb[2].toNat = t.orch.pcl.toNat % 256) ∧
    (i = .pair o ∨ i = .off o ∨ i = .on o →
      ∃ t, exec i s = .next t ∧ t.orch.pcl = s.orch.pcl ∧
        t.orch.pb[0] = 0 ∧ t.orch.pb[1] = 0 ∧ t.orch.pb[2] = 0)

/-- For PAIR, OFF and ON the parameter is ignored: the block is zero and both frames are the same whatever it
is (47_orchestrator.md R188, 30_encoding.md R76). -/
def Obligations.ParameterIgnored : Prop :=
  ∀ (c : Command) (o : ReqOperands) (p : Half) (s t t' : State), takesParam c = false →
    exec (c.instr o) s = .next t → exec (c.instr { o with param := p }) s = .next t' →
      t.orch.pb = #v[0, 0, 0] ∧ t'.orch.pb = #v[0, 0, 0] ∧
      (∀ i, (t.buf .hfout).read i = (t'.buf .hfout).read i) ∧ (∀ i, (t.buf .dlout).read i = (t'.buf .dlout).read i)

/-- The control codes: Pair's is 0xB4, and the four open ones are negative bytes (30_encoding.md R74;
00_scope.md R11, R17). -/
def Obligations.ControlCodesNegative : Prop :=
  ∀ (P : Params) (c : Command), controlCode P .pair = 0xB4 ∧ (controlCode P c).toInt < 0

/-- Every HF frame begins with "HFKJ" and ends with 10 to 15, every Deli16 frame ends with 10 to 19, and each is
26 bytes, whatever the open parameters, the command and the state (45_hf_builder.md R156, 46_deli16_builder.md
R175; the ASCII codes are general knowledge in the spec, 93_implementation_defined.md G4). -/
def Obligations.FrameFixedBytes : Prop :=
  ∀ (P : Params) (c : Command) (s : State), let t := runCommand P c s
    (∀ i, ((t.buf .hfout).read i).isSome = true ↔ i < 26) ∧ (∀ i, ((t.buf .dlout).read i).isSome = true ↔ i < 26) ∧
    (t.buf .hfout).slice 0 4 = [0x48, 0x46, 0x4B, 0x4A] ∧
    (t.buf .hfout).slice 20 6 = [0x10, 0x11, 0x12, 0x13, 0x14, 0x15] ∧
    (t.buf .dlout).slice 16 10 = [0x10, 0x11, 0x12, 0x13, 0x14, 0x15, 0x16, 0x17, 0x18, 0x19]

/-- Determinism: the same request gives the same frames and STATUS from any two states; nothing of an earlier
request survives (47_orchestrator.md R196, 10_state.md R34). -/
def Obligations.EncodeDeterministic : Prop :=
  ∀ (r : Request) (s s' t t' : State), exec (.encode r) s = .next t → exec (.encode r) s' = .next t' →
    (∀ i, (t.buf .hfout).read i = (t'.buf .hfout).read i) ∧ (∀ i, (t.buf .dlout).read i = (t'.buf .dlout).read i) ∧
    t.status = t'.status ∧ t.latches = t'.latches

/-- What the HF frame depends on: two commands with the same control code, the same parameter block (not
needed for the Pair code), the same low counter byte, identity byte 0, high nibble of identity byte 1 and random
byte give the same HF frame, from any two states (45_hf_builder.md R157). -/
def Obligations.HfFrameDependence : Prop :=
  ∀ (c c' : Command) (o o' : ReqOperands) (s s' t t' : State),
    exec (c.instr o) s = .next t → exec (c'.instr o') s' = .next t' →
    controlCode params c = controlCode params c' →
    (controlCode params c ≠ 0xB4 → blockOf c o.param = blockOf c' o'.param) →
    low8 o.counter = low8 o'.counter → o.ident[0] = o'.ident[0] →
    o.ident[1].extractLsb' 4 4 = o'.ident[1].extractLsb' 4 4 → o.rnd = o'.rnd →
    ∀ i, (t.buf .hfout).read i = (t'.buf .hfout).read i

/-- What the Deli16 frame depends on: two commands with the same control code, parameter block, low counter
byte and identity bytes 0 and 1 give the same Deli16 frame, from any two states; the random byte does not enter
(46_deli16_builder.md R177). -/
def Obligations.DlFrameDependence : Prop :=
  ∀ (c c' : Command) (o o' : ReqOperands) (s s' t t' : State),
    exec (c.instr o) s = .next t → exec (c'.instr o') s' = .next t' →
    controlCode params c = controlCode params c' → blockOf c o.param = blockOf c' o'.param →
    low8 o.counter = low8 o'.counter → o.ident[0] = o'.ident[0] → o.ident[1] = o'.ident[1] →
    ∀ i, (t.buf .dlout).read i = (t'.buf .dlout).read i

/-! ## The whole machine -/

/-- The invariant holds at reset. -/
def Obligations.ResetKeepsInvariant : Prop := State.reset.Inv

/-- Every step keeps the invariant: canonical buffers, consistent STATUS, and while DONE = 1 two whole frames,
settled orchestrator registers and the constant table (10_state.md R23, R28, R30, R31). -/
def Obligations.StepKeepsInvariant : Prop :=
  ∀ s t : State, s.Inv → step s = .next t → t.Inv

/-- DONE rises only through the acceptance of a recognised command: a request on the ports, or ENCODE driven
with one (10_state.md R23, R31; 47_orchestrator.md R189). -/
def Obligations.DoneOnlyByRecognisedCommand : Prop :=
  ∀ s t : State, s.status.done = false → step s = .next t → t.status.done = true →
    ∃ (e : Event) (r : Request), s.events.head? = some e ∧ r.cmd.toNat ≤ 4 ∧ t.framesWhole ∧
      (e = .ports false true r ∨ ∃ x : OpWires, x.req = r ∧ e = .op 10 x)

/-- No unit operation but ENCODE writes STATUS, the latches or the orchestrator's registers, and none raises:
a driven select other than 1010 that goes on leaves them as they were, and so does every host read
(60_exceptions.md R205, 20_memory.md R51). -/
def Obligations.UnitOperationsKeepControl : Prop :=
  ∀ (s t : State) (e : Event) (rest : List Event), s.events = e :: rest → step s = .next t →
    (∀ sel x, e = .op sel x → sel ≠ 10 →
      keepsControl s.popEvent t ∧ (sel ≠ 8 → (t.buf .hfout) = s.buf .hfout) ∧
      (sel ≠ 9 → (t.buf .dlout) = s.buf .dlout)) ∧
    (∀ port, e = .read port → t = s.popEvent)
end

