-- ==== Sys2Proof/Laws/Memory.lean ====
section
/-! SUPPORT. The laws of a buffer: a read after a write, and that every operation keeps the canonical form. -/

namespace Sys2Proof.Machine

theorem Memory.read_write (m : Memory) (i k : Nat) (v : Byte) :
    (m.write i v).read k = if k = i then some v else m.read k := by
  induction m with
  | nil => simp [Memory.write, Memory.read]
  | cons c m ih =>
    obtain ⟨a, b⟩ := c
    unfold Memory.write
    split
    · simp [Memory.read]
    · split
      · subst i
        by_cases h : k = a <;> simp [Memory.read, h]
      · by_cases h : k = a
        · subst h
          simp [Memory.read, Ne.symm ‹¬_›]
        · simp only [Memory.read, h, if_false]
          exact ih

theorem Memory.read_writeRange (bs : List Byte) (m : Memory) (start k : Nat) :
    (m.writeRange start bs).read k =
      if start ≤ k ∧ k < start + bs.length then bs[k - start]? else m.read k := by
  induction bs generalizing m start with
  | nil => simp [Memory.writeRange]
  | cons b bs ih =>
    rw [Memory.writeRange, ih, Memory.read_write]
    by_cases h : k = start
    · subst h; simp
    · by_cases h2 : start + 1 ≤ k ∧ k < start + 1 + bs.length
      · have h3 : start ≤ k ∧ k < start + (b :: bs).length := by simp; omega
        have h4 : k - start = (k - (start + 1)) + 1 := by omega
        rw [if_pos h2, if_pos h3, h4, List.getElem?_cons_succ]
      · have h3 : ¬(start ≤ k ∧ k < start + (b :: bs).length) := by simp; omega
        rw [if_neg h2, if_neg h3, if_neg h]

theorem Memory.read_ofBytes (bs : List Byte) (start k : Nat) :
    (Memory.ofBytes start bs).read k = if start ≤ k then bs[k - start]? else none := by
  induction bs generalizing start with
  | nil => simp [Memory.ofBytes, Memory.read]
  | cons b bs ih =>
    simp only [Memory.ofBytes, Memory.read, ih]
    by_cases h : k = start
    · subst h; simp
    · by_cases h2 : start ≤ k
      · have h4 : k - start = (k - (start + 1)) + 1 := by omega
        simp [h, h2, h4, show start + 1 ≤ k by omega]
      · simp [h, h2, show ¬ start + 1 ≤ k by omega]

theorem Memory.get_ofBytes (bs : List Byte) (k : Nat) : (Memory.ofBytes 0 bs).get k = bs.getD k 0 := by
  simp [Memory.get, Memory.read_ofBytes, List.getD_eq_getElem?_getD]

theorem Memory.holds_iff (m : Memory) (start n : Nat) :
    m.holds start n = true ↔ ∀ k < n, (m.read (start + k)).isSome = true := by
  simp [Memory.holds]

@[simp] theorem Memory.length_slice (m : Memory) (start n : Nat) : (m.slice start n).length = n := by
  simp [Memory.slice]

theorem Memory.slice_ofBytes (bs : List Byte) (start n : Nat) (h : start + n ≤ bs.length) :
    (Memory.ofBytes 0 bs).slice start n = (bs.drop start).take n := by
  apply List.ext_getElem?
  intro k
  by_cases hk : k < n
  · simp only [Memory.slice, List.getElem?_map, List.getElem?_range hk, Memory.get_ofBytes, Option.map_some,
      List.getElem?_take, List.getElem?_drop, hk, if_true, List.getD_eq_getElem?_getD]
    rw [List.getElem?_eq_getElem (by omega)]
    rfl
  · simp [Memory.slice, hk]

theorem Memory.holds_ofBytes (bs : List Byte) (start n : Nat) (h : start + n ≤ bs.length) :
    (Memory.ofBytes 0 bs).holds start n = true := by
  rw [Memory.holds_iff]
  intro k hk
  simp [Memory.read_ofBytes]
  omega

theorem Memory.mem_write {m : Memory} {i : Nat} {v : Byte} {c : Host.Cell} (h : c ∈ m.write i v) :
    c.1 = i ∨ c ∈ m := by
  induction m with
  | nil => simp [Memory.write] at h; simp [h]
  | cons d m ih =>
    obtain ⟨a, b⟩ := d
    unfold Memory.write at h
    split at h
    · rcases List.mem_cons.1 h with h | h
      · exact Or.inl (by rw [h])
      · exact Or.inr h
    · split at h
      · rcases List.mem_cons.1 h with h | h
        · exact Or.inl (by rw [h])
        · exact Or.inr (List.mem_cons_of_mem _ h)
      · rcases List.mem_cons.1 h with h | h
        · exact Or.inr (by rw [h]; exact List.mem_cons_self)
        · exact (ih h).imp_right (List.mem_cons_of_mem _)

/-- Writing a byte inside the buffer keeps the canonical form. -/
theorem Memory.write_wf {size : Nat} {m : Memory} {i : Nat} (v : Byte) (h : m.wf size) (hi : i < size) :
    (m.write i v).wf size := by
  refine ⟨?_, fun c hc => (Memory.mem_write hc).elim (fun e => e ▸ hi) (h.2 c)⟩
  obtain ⟨h, -⟩ := h
  induction m with
  | nil => simp [Memory.write]
  | cons d m ih =>
    obtain ⟨a, b⟩ := d
    rw [List.pairwise_cons] at h
    unfold Memory.write
    split
    · next hia =>
      refine List.pairwise_cons.2 ⟨fun c hc => ?_, List.pairwise_cons.2 h⟩
      rcases List.mem_cons.1 hc with rfl | hc
      · exact hia
      · exact Nat.lt_trans hia (h.1 c hc)
    · split
      · next hia => exact hia ▸ List.pairwise_cons.2 ⟨fun c hc => h.1 c hc, h.2⟩
      · refine List.pairwise_cons.2 ⟨fun c hc => ?_, ih h.2⟩
        rcases Memory.mem_write hc with hc | hc
        · simp only [hc]; omega
        · exact h.1 c hc

theorem Memory.writeRange_wf {size : Nat} {bs : List Byte} {m : Memory} {start : Nat} (h : m.wf size)
    (hn : start + bs.length ≤ size) : (m.writeRange start bs).wf size := by
  induction bs generalizing m start with
  | nil => exact h
  | cons b bs ih =>
    simp only [List.length_cons] at hn
    exact ih (Memory.write_wf b h (by omega)) (by omega)

theorem Memory.mem_ofBytes {bs : List Byte} {start : Nat} {c : Host.Cell} (h : c ∈ Memory.ofBytes start bs) :
    start ≤ c.1 ∧ c.1 < start + bs.length := by
  induction bs generalizing start with
  | nil => simp [Memory.ofBytes] at h
  | cons b bs ih =>
    rcases List.mem_cons.1 h with rfl | h
    · simp
    · have := ih h
      simp only [List.length_cons]
      omega

theorem Memory.ofBytes_wf {size : Nat} {bs : List Byte} {start : Nat} (h : start + bs.length ≤ size) :
    (Memory.ofBytes start bs).wf size := by
  refine ⟨?_, fun c hc => Nat.lt_of_lt_of_le (Memory.mem_ofBytes hc).2 h⟩
  clear h
  induction bs generalizing start with
  | nil => exact List.Pairwise.nil
  | cons b bs ih =>
    exact List.pairwise_cons.2 ⟨fun c hc => (Memory.mem_ofBytes hc).1, ih⟩

theorem Memory.nil_wf (size : Nat) : Memory.wf size [] := ⟨List.Pairwise.nil, by simp⟩

/-- Two canonical buffers that read alike are equal: the form is canonical. -/
theorem Memory.ext_of_read {size : Nat} {m m' : Memory} (h : m.wf size) (h' : m'.wf size)
    (e : ∀ k, m.read k = m'.read k) : m = m' := by
  have low : ∀ {m : Memory} {a : Nat}, (∀ c ∈ m, a < c.1) → ∀ k ≤ a, m.read k = none := by
    intro m a hm k hk
    induction m with
    | nil => rfl
    | cons c m ih =>
      have := hm c List.mem_cons_self
      simp only [Memory.read, show k ≠ c.1 by omega, if_false]
      exact ih fun d hd => hm d (List.mem_cons_of_mem _ hd)
  obtain ⟨h, -⟩ := h
  obtain ⟨h', -⟩ := h'
  induction m generalizing m' with
  | nil =>
    cases m' with
    | nil => rfl
    | cons c m' => have := e c.1; simp [Memory.read] at this
  | cons c m ih =>
    cases m' with
    | nil => have := e c.1; simp [Memory.read] at this
    | cons c' m' =>
      obtain ⟨a, b⟩ := c
      obtain ⟨a', b'⟩ := c'
      rw [List.pairwise_cons] at h h'
      have haa : a = a' := by
        by_contra hne
        rcases Nat.lt_or_gt_of_ne hne with hlt | hgt
        · have := e a
          rw [Memory.read, if_pos rfl, Memory.read, if_neg hne, low h'.1 a (Nat.le_of_lt hlt)] at this
          cases this
        · have := e a'
          rw [Memory.read, if_neg (Ne.symm hne), Memory.read, if_pos rfl, low h.1 a' (Nat.le_of_lt hgt)] at this
          cases this
      subst haa
      have hb : b = b' := by have := e a; simpa [Memory.read] using this
      subst hb
      congr 1
      refine ih (fun k => ?_) h.2 h'.2
      by_cases hk : k = a
      · subst hk
        rw [low h.1 k (Nat.le_refl _), low h'.1 k (Nat.le_refl _)]
      · have := e k
        simpa [Memory.read, hk] using this

end Sys2Proof.Machine
end

