-- ==== Sys2Proof/Laws/State.lean ====
section
/-! SUPPORT. One lemma per operation and per part of the state it leaves alone, so that no later proof unfolds
a record update; then what each operation writes. -/

namespace Sys2Proof.Machine

open Sys2Proof.Config

/-! State.popEvent -/

@[simp] theorem State.popEvent_latches (s : State) : s.popEvent.latches = s.latches := rfl
@[simp] theorem State.popEvent_status (s : State) : s.popEvent.status = s.status := rfl
@[simp] theorem State.popEvent_orch (s : State) : s.popEvent.orch = s.orch := rfl
@[simp] theorem State.popEvent_cipher (s : State) : s.popEvent.cipher = s.cipher := rfl
@[simp] theorem State.popEvent_table (s : State) : s.popEvent.table = s.table := rfl
@[simp] theorem State.popEvent_crc (s : State) : s.popEvent.crc = s.crc := rfl
@[simp] theorem State.popEvent_subst (s : State) : s.popEvent.subst = s.subst := rfl
@[simp] theorem State.popEvent_perm (s : State) : s.popEvent.perm = s.perm := rfl
@[simp] theorem State.popEvent_temp (s : State) : s.popEvent.temp = s.temp := rfl
@[simp] theorem State.popEvent_loops (s : State) : s.popEvent.loops = s.loops := rfl
@[simp] theorem State.popEvent_rev (s : State) : s.popEvent.rev = s.rev := rfl
@[simp] theorem State.popEvent_mem (s : State) : s.popEvent.mem = s.mem := rfl
@[simp] theorem State.popEvent_occasion (s : State) : s.popEvent.occasion = s.occasion := rfl

/-! State.loopsDone -/

@[simp] theorem State.loopsDone_events (s : State) : s.loopsDone.events = s.events := rfl
@[simp] theorem State.loopsDone_latches (s : State) : s.loopsDone.latches = s.latches := rfl
@[simp] theorem State.loopsDone_status (s : State) : s.loopsDone.status = s.status := rfl
@[simp] theorem State.loopsDone_orch (s : State) : s.loopsDone.orch = s.orch := rfl
@[simp] theorem State.loopsDone_cipher (s : State) : s.loopsDone.cipher = s.cipher := rfl
@[simp] theorem State.loopsDone_table (s : State) : s.loopsDone.table = s.table := rfl
@[simp] theorem State.loopsDone_crc (s : State) : s.loopsDone.crc = s.crc := rfl
@[simp] theorem State.loopsDone_subst (s : State) : s.loopsDone.subst = s.subst := rfl
@[simp] theorem State.loopsDone_perm (s : State) : s.loopsDone.perm = s.perm := rfl
@[simp] theorem State.loopsDone_temp (s : State) : s.loopsDone.temp = s.temp := rfl
@[simp] theorem State.loopsDone_rev (s : State) : s.loopsDone.rev = s.rev := rfl
@[simp] theorem State.loopsDone_mem (s : State) : s.loopsDone.mem = s.mem := rfl

/-! State.setBuf -/

@[simp] theorem State.setBuf_events (b : Space) (m : Memory) (s : State) : (s.setBuf b m).events = s.events := rfl
@[simp] theorem State.setBuf_latches (b : Space) (m : Memory) (s : State) : (s.setBuf b m).latches = s.latches := rfl
@[simp] theorem State.setBuf_status (b : Space) (m : Memory) (s : State) : (s.setBuf b m).status = s.status := rfl
@[simp] theorem State.setBuf_orch (b : Space) (m : Memory) (s : State) : (s.setBuf b m).orch = s.orch := rfl
@[simp] theorem State.setBuf_cipher (b : Space) (m : Memory) (s : State) : (s.setBuf b m).cipher = s.cipher := rfl
@[simp] theorem State.setBuf_table (b : Space) (m : Memory) (s : State) : (s.setBuf b m).table = s.table := rfl
@[simp] theorem State.setBuf_crc (b : Space) (m : Memory) (s : State) : (s.setBuf b m).crc = s.crc := rfl
@[simp] theorem State.setBuf_subst (b : Space) (m : Memory) (s : State) : (s.setBuf b m).subst = s.subst := rfl
@[simp] theorem State.setBuf_perm (b : Space) (m : Memory) (s : State) : (s.setBuf b m).perm = s.perm := rfl
@[simp] theorem State.setBuf_temp (b : Space) (m : Memory) (s : State) : (s.setBuf b m).temp = s.temp := rfl
@[simp] theorem State.setBuf_loops (b : Space) (m : Memory) (s : State) : (s.setBuf b m).loops = s.loops := rfl
@[simp] theorem State.setBuf_rev (b : Space) (m : Memory) (s : State) : (s.setBuf b m).rev = s.rev := rfl
@[simp] theorem State.setBuf_occasion (b : Space) (m : Memory) (s : State) : (s.setBuf b m).occasion = s.occasion := rfl

/-! acceptRequest -/

@[simp] theorem acceptRequest_events (r : Request) (s : State) : (acceptRequest r s).events = s.events := rfl
@[simp] theorem acceptRequest_orch (r : Request) (s : State) : (acceptRequest r s).orch = s.orch := rfl
@[simp] theorem acceptRequest_cipher (r : Request) (s : State) : (acceptRequest r s).cipher = s.cipher := rfl
@[simp] theorem acceptRequest_table (r : Request) (s : State) : (acceptRequest r s).table = s.table := rfl
@[simp] theorem acceptRequest_crc (r : Request) (s : State) : (acceptRequest r s).crc = s.crc := rfl
@[simp] theorem acceptRequest_subst (r : Request) (s : State) : (acceptRequest r s).subst = s.subst := rfl
@[simp] theorem acceptRequest_perm (r : Request) (s : State) : (acceptRequest r s).perm = s.perm := rfl
@[simp] theorem acceptRequest_temp (r : Request) (s : State) : (acceptRequest r s).temp = s.temp := rfl
@[simp] theorem acceptRequest_loops (r : Request) (s : State) : (acceptRequest r s).loops = s.loops := rfl
@[simp] theorem acceptRequest_rev (r : Request) (s : State) : (acceptRequest r s).rev = s.rev := rfl
@[simp] theorem acceptRequest_occasion (r : Request) (s : State) : (acceptRequest r s).occasion = s.occasion := rfl

/-! raiseUnknownCommand -/

@[simp] theorem raiseUnknownCommand_events (s : State) : (raiseUnknownCommand s).events = s.events := rfl
@[simp] theorem raiseUnknownCommand_latches (s : State) : (raiseUnknownCommand s).latches = s.latches := rfl
@[simp] theorem raiseUnknownCommand_orch (s : State) : (raiseUnknownCommand s).orch = s.orch := rfl
@[simp] theorem raiseUnknownCommand_cipher (s : State) : (raiseUnknownCommand s).cipher = s.cipher := rfl
@[simp] theorem raiseUnknownCommand_table (s : State) : (raiseUnknownCommand s).table = s.table := rfl
@[simp] theorem raiseUnknownCommand_crc (s : State) : (raiseUnknownCommand s).crc = s.crc := rfl
@[simp] theorem raiseUnknownCommand_subst (s : State) : (raiseUnknownCommand s).subst = s.subst := rfl
@[simp] theorem raiseUnknownCommand_perm (s : State) : (raiseUnknownCommand s).perm = s.perm := rfl
@[simp] theorem raiseUnknownCommand_temp (s : State) : (raiseUnknownCommand s).temp = s.temp := rfl
@[simp] theorem raiseUnknownCommand_loops (s : State) : (raiseUnknownCommand s).loops = s.loops := rfl
@[simp] theorem raiseUnknownCommand_rev (s : State) : (raiseUnknownCommand s).rev = s.rev := rfl
@[simp] theorem raiseUnknownCommand_occasion (s : State) : (raiseUnknownCommand s).occasion = s.occasion := rfl

/-! completeEncode -/

@[simp] theorem completeEncode_events (s : State) : (completeEncode s).events = s.events := rfl
@[simp] theorem completeEncode_latches (s : State) : (completeEncode s).latches = s.latches := rfl
@[simp] theorem completeEncode_orch (s : State) : (completeEncode s).orch = s.orch := rfl
@[simp] theorem completeEncode_cipher (s : State) : (completeEncode s).cipher = s.cipher := rfl
@[simp] theorem completeEncode_table (s : State) : (completeEncode s).table = s.table := rfl
@[simp] theorem completeEncode_crc (s : State) : (completeEncode s).crc = s.crc := rfl
@[simp] theorem completeEncode_subst (s : State) : (completeEncode s).subst = s.subst := rfl
@[simp] theorem completeEncode_perm (s : State) : (completeEncode s).perm = s.perm := rfl
@[simp] theorem completeEncode_temp (s : State) : (completeEncode s).temp = s.temp := rfl
@[simp] theorem completeEncode_loops (s : State) : (completeEncode s).loops = s.loops := rfl
@[simp] theorem completeEncode_rev (s : State) : (completeEncode s).rev = s.rev := rfl
@[simp] theorem completeEncode_mem (s : State) : (completeEncode s).mem = s.mem := rfl
@[simp] theorem completeEncode_occasion (s : State) : (completeEncode s).occasion = s.occasion := rfl

/-! lookupControl -/

@[simp] theorem lookupControl_events (P : Params) (c : Command) (s : State) : (lookupControl P c s).events = s.events := rfl
@[simp] theorem lookupControl_latches (P : Params) (c : Command) (s : State) : (lookupControl P c s).latches = s.latches := rfl
@[simp] theorem lookupControl_status (P : Params) (c : Command) (s : State) : (lookupControl P c s).status = s.status := rfl
@[simp] theorem lookupControl_cipher (P : Params) (c : Command) (s : State) : (lookupControl P c s).cipher = s.cipher := rfl
@[simp] theorem lookupControl_table (P : Params) (c : Command) (s : State) : (lookupControl P c s).table = s.table := rfl
@[simp] theorem lookupControl_crc (P : Params) (c : Command) (s : State) : (lookupControl P c s).crc = s.crc := rfl
@[simp] theorem lookupControl_subst (P : Params) (c : Command) (s : State) : (lookupControl P c s).subst = s.subst := rfl
@[simp] theorem lookupControl_perm (P : Params) (c : Command) (s : State) : (lookupControl P c s).perm = s.perm := rfl
@[simp] theorem lookupControl_temp (P : Params) (c : Command) (s : State) : (lookupControl P c s).temp = s.temp := rfl
@[simp] theorem lookupControl_loops (P : Params) (c : Command) (s : State) : (lookupControl P c s).loops = s.loops := rfl
@[simp] theorem lookupControl_rev (P : Params) (c : Command) (s : State) : (lookupControl P c s).rev = s.rev := rfl
@[simp] theorem lookupControl_mem (P : Params) (c : Command) (s : State) : (lookupControl P c s).mem = s.mem := rfl
@[simp] theorem lookupControl_occasion (P : Params) (c : Command) (s : State) : (lookupControl P c s).occasion = s.occasion := rfl

/-! loadParam -/

@[simp] theorem loadParam_events (c : Command) (s : State) : (loadParam c s).events = s.events := rfl
@[simp] theorem loadParam_latches (c : Command) (s : State) : (loadParam c s).latches = s.latches := rfl
@[simp] theorem loadParam_status (c : Command) (s : State) : (loadParam c s).status = s.status := rfl
@[simp] theorem loadParam_cipher (c : Command) (s : State) : (loadParam c s).cipher = s.cipher := rfl
@[simp] theorem loadParam_table (c : Command) (s : State) : (loadParam c s).table = s.table := rfl
@[simp] theorem loadParam_crc (c : Command) (s : State) : (loadParam c s).crc = s.crc := rfl
@[simp] theorem loadParam_subst (c : Command) (s : State) : (loadParam c s).subst = s.subst := rfl
@[simp] theorem loadParam_perm (c : Command) (s : State) : (loadParam c s).perm = s.perm := rfl
@[simp] theorem loadParam_temp (c : Command) (s : State) : (loadParam c s).temp = s.temp := rfl
@[simp] theorem loadParam_loops (c : Command) (s : State) : (loadParam c s).loops = s.loops := rfl
@[simp] theorem loadParam_rev (c : Command) (s : State) : (loadParam c s).rev = s.rev := rfl
@[simp] theorem loadParam_mem (c : Command) (s : State) : (loadParam c s).mem = s.mem := rfl
@[simp] theorem loadParam_occasion (c : Command) (s : State) : (loadParam c s).occasion = s.occasion := rfl

/-! crc16fOn -/

@[simp] theorem crc16fOn_events (b : Space) (i n : Nat) (a : Half) (s : State) : (crc16fOn b i n a s).events = s.events := by simp [crc16fOn]
@[simp] theorem crc16fOn_latches (b : Space) (i n : Nat) (a : Half) (s : State) : (crc16fOn b i n a s).latches = s.latches := by simp [crc16fOn]
@[simp] theorem crc16fOn_status (b : Space) (i n : Nat) (a : Half) (s : State) : (crc16fOn b i n a s).status = s.status := by simp [crc16fOn]
@[simp] theorem crc16fOn_orch (b : Space) (i n : Nat) (a : Half) (s : State) : (crc16fOn b i n a s).orch = s.orch := by simp [crc16fOn]
@[simp] theorem crc16fOn_cipher (b : Space) (i n : Nat) (a : Half) (s : State) : (crc16fOn b i n a s).cipher = s.cipher := by simp [crc16fOn]
@[simp] theorem crc16fOn_table (b : Space) (i n : Nat) (a : Half) (s : State) : (crc16fOn b i n a s).table = s.table := by simp [crc16fOn]
@[simp] theorem crc16fOn_subst (b : Space) (i n : Nat) (a : Half) (s : State) : (crc16fOn b i n a s).subst = s.subst := by simp [crc16fOn]
@[simp] theorem crc16fOn_perm (b : Space) (i n : Nat) (a : Half) (s : State) : (crc16fOn b i n a s).perm = s.perm := by simp [crc16fOn]
@[simp] theorem crc16fOn_temp (b : Space) (i n : Nat) (a : Half) (s : State) : (crc16fOn b i n a s).temp = s.temp := by simp [crc16fOn]
@[simp] theorem crc16fOn_rev (b : Space) (i n : Nat) (a : Half) (s : State) : (crc16fOn b i n a s).rev = s.rev := by simp [crc16fOn]
@[simp] theorem crc16fOn_mem (b : Space) (i n : Nat) (a : Half) (s : State) : (crc16fOn b i n a s).mem = s.mem := by simp [crc16fOn]

/-! crc16rOn -/

@[simp] theorem crc16rOn_events (s : State) : (crc16rOn s).events = s.events := by simp [crc16rOn]
@[simp] theorem crc16rOn_latches (s : State) : (crc16rOn s).latches = s.latches := by simp [crc16rOn]
@[simp] theorem crc16rOn_status (s : State) : (crc16rOn s).status = s.status := by simp [crc16rOn]
@[simp] theorem crc16rOn_orch (s : State) : (crc16rOn s).orch = s.orch := by simp [crc16rOn]
@[simp] theorem crc16rOn_cipher (s : State) : (crc16rOn s).cipher = s.cipher := by simp [crc16rOn]
@[simp] theorem crc16rOn_table (s : State) : (crc16rOn s).table = s.table := by simp [crc16rOn]
@[simp] theorem crc16rOn_subst (s : State) : (crc16rOn s).subst = s.subst := by simp [crc16rOn]
@[simp] theorem crc16rOn_perm (s : State) : (crc16rOn s).perm = s.perm := by simp [crc16rOn]
@[simp] theorem crc16rOn_temp (s : State) : (crc16rOn s).temp = s.temp := by simp [crc16rOn]
@[simp] theorem crc16rOn_rev (s : State) : (crc16rOn s).rev = s.rev := by simp [crc16rOn]
@[simp] theorem crc16rOn_mem (s : State) : (crc16rOn s).mem = s.mem := by simp [crc16rOn]

/-! blkencOf -/

@[simp] theorem blkencOf_events (P : Params) (v : Vector Byte 8) (s : State) : (blkencOf P v s).events = s.events := by simp [blkencOf]
@[simp] theorem blkencOf_latches (P : Params) (v : Vector Byte 8) (s : State) : (blkencOf P v s).latches = s.latches := by simp [blkencOf]
@[simp] theorem blkencOf_status (P : Params) (v : Vector Byte 8) (s : State) : (blkencOf P v s).status = s.status := by simp [blkencOf]
@[simp] theorem blkencOf_orch (P : Params) (v : Vector Byte 8) (s : State) : (blkencOf P v s).orch = s.orch := by simp [blkencOf]
@[simp] theorem blkencOf_table (P : Params) (v : Vector Byte 8) (s : State) : (blkencOf P v s).table = s.table := by simp [blkencOf]
@[simp] theorem blkencOf_crc (P : Params) (v : Vector Byte 8) (s : State) : (blkencOf P v s).crc = s.crc := by simp [blkencOf]
@[simp] theorem blkencOf_subst (P : Params) (v : Vector Byte 8) (s : State) : (blkencOf P v s).subst = s.subst := by simp [blkencOf]
@[simp] theorem blkencOf_perm (P : Params) (v : Vector Byte 8) (s : State) : (blkencOf P v s).perm = s.perm := by simp [blkencOf]
@[simp] theorem blkencOf_temp (P : Params) (v : Vector Byte 8) (s : State) : (blkencOf P v s).temp = s.temp := by simp [blkencOf]
@[simp] theorem blkencOf_rev (P : Params) (v : Vector Byte 8) (s : State) : (blkencOf P v s).rev = s.rev := by simp [blkencOf]

/-! dtabOn -/

@[simp] theorem dtabOn_events (P : Params) (s : State) : (dtabOn P s).events = s.events := by simp [dtabOn]
@[simp] theorem dtabOn_latches (P : Params) (s : State) : (dtabOn P s).latches = s.latches := by simp [dtabOn]
@[simp] theorem dtabOn_status (P : Params) (s : State) : (dtabOn P s).status = s.status := by simp [dtabOn]
@[simp] theorem dtabOn_orch (P : Params) (s : State) : (dtabOn P s).orch = s.orch := by simp [dtabOn]
@[simp] theorem dtabOn_crc (P : Params) (s : State) : (dtabOn P s).crc = s.crc := by simp [dtabOn]
@[simp] theorem dtabOn_subst (P : Params) (s : State) : (dtabOn P s).subst = s.subst := by simp [dtabOn]
@[simp] theorem dtabOn_perm (P : Params) (s : State) : (dtabOn P s).perm = s.perm := by simp [dtabOn]
@[simp] theorem dtabOn_temp (P : Params) (s : State) : (dtabOn P s).temp = s.temp := by simp [dtabOn]
@[simp] theorem dtabOn_rev (P : Params) (s : State) : (dtabOn P s).rev = s.rev := by simp [dtabOn]

/-! obfOn -/

@[simp] theorem obfOn_events (P : Params) (b : Space) (i n : Nat) (k : Byte) (s : State) : (obfOn P b i n k s).events = s.events := by simp [obfOn]
@[simp] theorem obfOn_latches (P : Params) (b : Space) (i n : Nat) (k : Byte) (s : State) : (obfOn P b i n k s).latches = s.latches := by simp [obfOn]
@[simp] theorem obfOn_status (P : Params) (b : Space) (i n : Nat) (k : Byte) (s : State) : (obfOn P b i n k s).status = s.status := by simp [obfOn]
@[simp] theorem obfOn_orch (P : Params) (b : Space) (i n : Nat) (k : Byte) (s : State) : (obfOn P b i n k s).orch = s.orch := by simp [obfOn]
@[simp] theorem obfOn_crc (P : Params) (b : Space) (i n : Nat) (k : Byte) (s : State) : (obfOn P b i n k s).crc = s.crc := by simp [obfOn]
@[simp] theorem obfOn_perm (P : Params) (b : Space) (i n : Nat) (k : Byte) (s : State) : (obfOn P b i n k s).perm = s.perm := by simp [obfOn]
@[simp] theorem obfOn_temp (P : Params) (b : Space) (i n : Nat) (k : Byte) (s : State) : (obfOn P b i n k s).temp = s.temp := by simp [obfOn]
@[simp] theorem obfOn_rev (P : Params) (b : Space) (i n : Nat) (k : Byte) (s : State) : (obfOn P b i n k s).rev = s.rev := by simp [obfOn]

/-! permOn -/

@[simp] theorem permOn_events (P : Params) (b : Space) (n : Nat) (k : Byte) (s : State) : (permOn P b n k s).events = s.events := by simp [permOn]
@[simp] theorem permOn_latches (P : Params) (b : Space) (n : Nat) (k : Byte) (s : State) : (permOn P b n k s).latches = s.latches := by simp [permOn]
@[simp] theorem permOn_status (P : Params) (b : Space) (n : Nat) (k : Byte) (s : State) : (permOn P b n k s).status = s.status := by simp [permOn]
@[simp] theorem permOn_orch (P : Params) (b : Space) (n : Nat) (k : Byte) (s : State) : (permOn P b n k s).orch = s.orch := by simp [permOn]
@[simp] theorem permOn_cipher (P : Params) (b : Space) (n : Nat) (k : Byte) (s : State) : (permOn P b n k s).cipher = s.cipher := by simp [permOn]
@[simp] theorem permOn_table (P : Params) (b : Space) (n : Nat) (k : Byte) (s : State) : (permOn P b n k s).table = s.table := by simp [permOn]
@[simp] theorem permOn_crc (P : Params) (b : Space) (n : Nat) (k : Byte) (s : State) : (permOn P b n k s).crc = s.crc := by simp [permOn]
@[simp] theorem permOn_subst (P : Params) (b : Space) (n : Nat) (k : Byte) (s : State) : (permOn P b n k s).subst = s.subst := by simp [permOn]
@[simp] theorem permOn_temp (P : Params) (b : Space) (n : Nat) (k : Byte) (s : State) : (permOn P b n k s).temp = s.temp := by simp [permOn]
@[simp] theorem permOn_rev (P : Params) (b : Space) (n : Nat) (k : Byte) (s : State) : (permOn P b n k s).rev = s.rev := by simp [permOn]

/-! hfLoad -/

@[simp] theorem hfLoad_events (s : State) : (hfLoad s).events = s.events := by simp [hfLoad]
@[simp] theorem hfLoad_latches (s : State) : (hfLoad s).latches = s.latches := by simp [hfLoad]
@[simp] theorem hfLoad_status (s : State) : (hfLoad s).status = s.status := by simp [hfLoad]
@[simp] theorem hfLoad_orch (s : State) : (hfLoad s).orch = s.orch := by simp [hfLoad]
@[simp] theorem hfLoad_cipher (s : State) : (hfLoad s).cipher = s.cipher := by simp [hfLoad]
@[simp] theorem hfLoad_table (s : State) : (hfLoad s).table = s.table := by simp [hfLoad]
@[simp] theorem hfLoad_crc (s : State) : (hfLoad s).crc = s.crc := by simp [hfLoad]
@[simp] theorem hfLoad_subst (s : State) : (hfLoad s).subst = s.subst := by simp [hfLoad]
@[simp] theorem hfLoad_perm (s : State) : (hfLoad s).perm = s.perm := by simp [hfLoad]
@[simp] theorem hfLoad_temp (s : State) : (hfLoad s).temp = s.temp := by simp [hfLoad]
@[simp] theorem hfLoad_loops (s : State) : (hfLoad s).loops = s.loops := by simp [hfLoad]
@[simp] theorem hfLoad_rev (s : State) : (hfLoad s).rev = s.rev := by simp [hfLoad]
@[simp] theorem hfLoad_occasion (s : State) : (hfLoad s).occasion = s.occasion := by simp [hfLoad]

/-! hfParamRegion -/

@[simp] theorem hfParamRegion_events (P : Params) (s : State) : (hfParamRegion P s).events = s.events := by unfold hfParamRegion; split <;> simp
@[simp] theorem hfParamRegion_latches (P : Params) (s : State) : (hfParamRegion P s).latches = s.latches := by unfold hfParamRegion; split <;> simp
@[simp] theorem hfParamRegion_status (P : Params) (s : State) : (hfParamRegion P s).status = s.status := by unfold hfParamRegion; split <;> simp
@[simp] theorem hfParamRegion_orch (P : Params) (s : State) : (hfParamRegion P s).orch = s.orch := by unfold hfParamRegion; split <;> simp
@[simp] theorem hfParamRegion_crc (P : Params) (s : State) : (hfParamRegion P s).crc = s.crc := by unfold hfParamRegion; split <;> simp
@[simp] theorem hfParamRegion_perm (P : Params) (s : State) : (hfParamRegion P s).perm = s.perm := by unfold hfParamRegion; split <;> simp
@[simp] theorem hfParamRegion_temp (P : Params) (s : State) : (hfParamRegion P s).temp = s.temp := by unfold hfParamRegion; split <;> simp
@[simp] theorem hfParamRegion_rev (P : Params) (s : State) : (hfParamRegion P s).rev = s.rev := by unfold hfParamRegion; split <;> simp

/-! hfCheck -/

@[simp] theorem hfCheck_events (s : State) : (hfCheck s).events = s.events := by simp [hfCheck]
@[simp] theorem hfCheck_latches (s : State) : (hfCheck s).latches = s.latches := by simp [hfCheck]
@[simp] theorem hfCheck_status (s : State) : (hfCheck s).status = s.status := by simp [hfCheck]
@[simp] theorem hfCheck_orch (s : State) : (hfCheck s).orch = s.orch := by simp [hfCheck]
@[simp] theorem hfCheck_cipher (s : State) : (hfCheck s).cipher = s.cipher := by simp [hfCheck]
@[simp] theorem hfCheck_table (s : State) : (hfCheck s).table = s.table := by simp [hfCheck]
@[simp] theorem hfCheck_subst (s : State) : (hfCheck s).subst = s.subst := by simp [hfCheck]
@[simp] theorem hfCheck_perm (s : State) : (hfCheck s).perm = s.perm := by simp [hfCheck]
@[simp] theorem hfCheck_temp (s : State) : (hfCheck s).temp = s.temp := by simp [hfCheck]
@[simp] theorem hfCheck_rev (s : State) : (hfCheck s).rev = s.rev := by simp [hfCheck]

/-! hfWholePass -/

@[simp] theorem hfWholePass_events (P : Params) (s : State) : (hfWholePass P s).events = s.events := by simp [hfWholePass]
@[simp] theorem hfWholePass_latches (P : Params) (s : State) : (hfWholePass P s).latches = s.latches := by simp [hfWholePass]
@[simp] theorem hfWholePass_status (P : Params) (s : State) : (hfWholePass P s).status = s.status := by simp [hfWholePass]
@[simp] theorem hfWholePass_orch (P : Params) (s : State) : (hfWholePass P s).orch = s.orch := by simp [hfWholePass]
@[simp] theorem hfWholePass_crc (P : Params) (s : State) : (hfWholePass P s).crc = s.crc := by simp [hfWholePass]
@[simp] theorem hfWholePass_perm (P : Params) (s : State) : (hfWholePass P s).perm = s.perm := by simp [hfWholePass]
@[simp] theorem hfWholePass_temp (P : Params) (s : State) : (hfWholePass P s).temp = s.temp := by simp [hfWholePass]
@[simp] theorem hfWholePass_rev (P : Params) (s : State) : (hfWholePass P s).rev = s.rev := by simp [hfWholePass]

/-! hfEmit -/

@[simp] theorem hfEmit_events (s : State) : (hfEmit s).events = s.events := by simp [hfEmit]
@[simp] theorem hfEmit_latches (s : State) : (hfEmit s).latches = s.latches := by simp [hfEmit]
@[simp] theorem hfEmit_status (s : State) : (hfEmit s).status = s.status := by simp [hfEmit]
@[simp] theorem hfEmit_orch (s : State) : (hfEmit s).orch = s.orch := by simp [hfEmit]
@[simp] theorem hfEmit_cipher (s : State) : (hfEmit s).cipher = s.cipher := by simp [hfEmit]
@[simp] theorem hfEmit_table (s : State) : (hfEmit s).table = s.table := by simp [hfEmit]
@[simp] theorem hfEmit_crc (s : State) : (hfEmit s).crc = s.crc := by simp [hfEmit]
@[simp] theorem hfEmit_subst (s : State) : (hfEmit s).subst = s.subst := by simp [hfEmit]
@[simp] theorem hfEmit_perm (s : State) : (hfEmit s).perm = s.perm := by simp [hfEmit]
@[simp] theorem hfEmit_temp (s : State) : (hfEmit s).temp = s.temp := by simp [hfEmit]
@[simp] theorem hfEmit_loops (s : State) : (hfEmit s).loops = s.loops := by simp [hfEmit]
@[simp] theorem hfEmit_rev (s : State) : (hfEmit s).rev = s.rev := by simp [hfEmit]
@[simp] theorem hfEmit_occasion (s : State) : (hfEmit s).occasion = s.occasion := by simp [hfEmit]

/-! hfbuild -/

@[simp] theorem hfbuild_events (P : Params) (s : State) : (hfbuild P s).events = s.events := by simp [hfbuild]
@[simp] theorem hfbuild_latches (P : Params) (s : State) : (hfbuild P s).latches = s.latches := by simp [hfbuild]
@[simp] theorem hfbuild_status (P : Params) (s : State) : (hfbuild P s).status = s.status := by simp [hfbuild]
@[simp] theorem hfbuild_orch (P : Params) (s : State) : (hfbuild P s).orch = s.orch := by simp [hfbuild]
@[simp] theorem hfbuild_perm (P : Params) (s : State) : (hfbuild P s).perm = s.perm := by simp [hfbuild]
@[simp] theorem hfbuild_temp (P : Params) (s : State) : (hfbuild P s).temp = s.temp := by simp [hfbuild]
@[simp] theorem hfbuild_rev (P : Params) (s : State) : (hfbuild P s).rev = s.rev := by simp [hfbuild]

/-! dlCascade -/

@[simp] theorem dlCascade_events (s : State) : (dlCascade s).events = s.events := by simp [dlCascade]
@[simp] theorem dlCascade_latches (s : State) : (dlCascade s).latches = s.latches := by simp [dlCascade]
@[simp] theorem dlCascade_status (s : State) : (dlCascade s).status = s.status := by simp [dlCascade]
@[simp] theorem dlCascade_orch (s : State) : (dlCascade s).orch = s.orch := by simp [dlCascade]
@[simp] theorem dlCascade_cipher (s : State) : (dlCascade s).cipher = s.cipher := by simp [dlCascade]
@[simp] theorem dlCascade_table (s : State) : (dlCascade s).table = s.table := by simp [dlCascade]
@[simp] theorem dlCascade_crc (s : State) : (dlCascade s).crc = s.crc := by simp [dlCascade]
@[simp] theorem dlCascade_subst (s : State) : (dlCascade s).subst = s.subst := by simp [dlCascade]
@[simp] theorem dlCascade_perm (s : State) : (dlCascade s).perm = s.perm := by simp [dlCascade]
@[simp] theorem dlCascade_loops (s : State) : (dlCascade s).loops = s.loops := by simp [dlCascade]
@[simp] theorem dlCascade_rev (s : State) : (dlCascade s).rev = s.rev := by simp [dlCascade]
@[simp] theorem dlCascade_occasion (s : State) : (dlCascade s).occasion = s.occasion := by simp [dlCascade]

/-! dlStream -/

@[simp] theorem dlStream_events (s : State) : (dlStream s).events = s.events := by simp [dlStream]
@[simp] theorem dlStream_latches (s : State) : (dlStream s).latches = s.latches := by simp [dlStream]
@[simp] theorem dlStream_status (s : State) : (dlStream s).status = s.status := by simp [dlStream]
@[simp] theorem dlStream_orch (s : State) : (dlStream s).orch = s.orch := by simp [dlStream]
@[simp] theorem dlStream_cipher (s : State) : (dlStream s).cipher = s.cipher := by simp [dlStream]
@[simp] theorem dlStream_table (s : State) : (dlStream s).table = s.table := by simp [dlStream]
@[simp] theorem dlStream_crc (s : State) : (dlStream s).crc = s.crc := by simp [dlStream]
@[simp] theorem dlStream_subst (s : State) : (dlStream s).subst = s.subst := by simp [dlStream]
@[simp] theorem dlStream_perm (s : State) : (dlStream s).perm = s.perm := by simp [dlStream]
@[simp] theorem dlStream_temp (s : State) : (dlStream s).temp = s.temp := by simp [dlStream]
@[simp] theorem dlStream_loops (s : State) : (dlStream s).loops = s.loops := by simp [dlStream]
@[simp] theorem dlStream_rev (s : State) : (dlStream s).rev = s.rev := by simp [dlStream]
@[simp] theorem dlStream_occasion (s : State) : (dlStream s).occasion = s.occasion := by simp [dlStream]

/-! dlFill -/

@[simp] theorem dlFill_events (s : State) : (dlFill s).events = s.events := by simp [dlFill]
@[simp] theorem dlFill_latches (s : State) : (dlFill s).latches = s.latches := by simp [dlFill]
@[simp] theorem dlFill_status (s : State) : (dlFill s).status = s.status := by simp [dlFill]
@[simp] theorem dlFill_orch (s : State) : (dlFill s).orch = s.orch := by simp [dlFill]
@[simp] theorem dlFill_cipher (s : State) : (dlFill s).cipher = s.cipher := by simp [dlFill]
@[simp] theorem dlFill_table (s : State) : (dlFill s).table = s.table := by simp [dlFill]
@[simp] theorem dlFill_crc (s : State) : (dlFill s).crc = s.crc := by simp [dlFill]
@[simp] theorem dlFill_subst (s : State) : (dlFill s).subst = s.subst := by simp [dlFill]
@[simp] theorem dlFill_perm (s : State) : (dlFill s).perm = s.perm := by simp [dlFill]
@[simp] theorem dlFill_temp (s : State) : (dlFill s).temp = s.temp := by simp [dlFill]
@[simp] theorem dlFill_loops (s : State) : (dlFill s).loops = s.loops := by simp [dlFill]
@[simp] theorem dlFill_rev (s : State) : (dlFill s).rev = s.rev := by simp [dlFill]
@[simp] theorem dlFill_occasion (s : State) : (dlFill s).occasion = s.occasion := by simp [dlFill]

/-! dlReverse -/

@[simp] theorem dlReverse_events (s : State) : (dlReverse s).events = s.events := by simp [dlReverse]
@[simp] theorem dlReverse_latches (s : State) : (dlReverse s).latches = s.latches := by simp [dlReverse]
@[simp] theorem dlReverse_status (s : State) : (dlReverse s).status = s.status := by simp [dlReverse]
@[simp] theorem dlReverse_orch (s : State) : (dlReverse s).orch = s.orch := by simp [dlReverse]
@[simp] theorem dlReverse_cipher (s : State) : (dlReverse s).cipher = s.cipher := by simp [dlReverse]
@[simp] theorem dlReverse_table (s : State) : (dlReverse s).table = s.table := by simp [dlReverse]
@[simp] theorem dlReverse_crc (s : State) : (dlReverse s).crc = s.crc := by simp [dlReverse]
@[simp] theorem dlReverse_subst (s : State) : (dlReverse s).subst = s.subst := by simp [dlReverse]
@[simp] theorem dlReverse_perm (s : State) : (dlReverse s).perm = s.perm := by simp [dlReverse]
@[simp] theorem dlReverse_temp (s : State) : (dlReverse s).temp = s.temp := by simp [dlReverse]
@[simp] theorem dlReverse_loops (s : State) : (dlReverse s).loops = s.loops := by simp [dlReverse]
@[simp] theorem dlReverse_rev (s : State) : (dlReverse s).rev = s.rev := by simp [dlReverse]
@[simp] theorem dlReverse_occasion (s : State) : (dlReverse s).occasion = s.occasion := by simp [dlReverse]

/-! dlStoreCrc -/

@[simp] theorem dlStoreCrc_events (s : State) : (dlStoreCrc s).events = s.events := by simp [dlStoreCrc]
@[simp] theorem dlStoreCrc_latches (s : State) : (dlStoreCrc s).latches = s.latches := by simp [dlStoreCrc]
@[simp] theorem dlStoreCrc_status (s : State) : (dlStoreCrc s).status = s.status := by simp [dlStoreCrc]
@[simp] theorem dlStoreCrc_orch (s : State) : (dlStoreCrc s).orch = s.orch := by simp [dlStoreCrc]
@[simp] theorem dlStoreCrc_cipher (s : State) : (dlStoreCrc s).cipher = s.cipher := by simp [dlStoreCrc]
@[simp] theorem dlStoreCrc_table (s : State) : (dlStoreCrc s).table = s.table := by simp [dlStoreCrc]
@[simp] theorem dlStoreCrc_crc (s : State) : (dlStoreCrc s).crc = s.crc := by simp [dlStoreCrc]
@[simp] theorem dlStoreCrc_subst (s : State) : (dlStoreCrc s).subst = s.subst := by simp [dlStoreCrc]
@[simp] theorem dlStoreCrc_perm (s : State) : (dlStoreCrc s).perm = s.perm := by simp [dlStoreCrc]
@[simp] theorem dlStoreCrc_temp (s : State) : (dlStoreCrc s).temp = s.temp := by simp [dlStoreCrc]
@[simp] theorem dlStoreCrc_loops (s : State) : (dlStoreCrc s).loops = s.loops := by simp [dlStoreCrc]
@[simp] theorem dlStoreCrc_rev (s : State) : (dlStoreCrc s).rev = s.rev := by simp [dlStoreCrc]
@[simp] theorem dlStoreCrc_occasion (s : State) : (dlStoreCrc s).occasion = s.occasion := by simp [dlStoreCrc]

/-! dlFirstPass -/

@[simp] theorem dlFirstPass_events (P : Params) (s : State) : (dlFirstPass P s).events = s.events := by simp [dlFirstPass]
@[simp] theorem dlFirstPass_latches (P : Params) (s : State) : (dlFirstPass P s).latches = s.latches := by simp [dlFirstPass]
@[simp] theorem dlFirstPass_status (P : Params) (s : State) : (dlFirstPass P s).status = s.status := by simp [dlFirstPass]
@[simp] theorem dlFirstPass_orch (P : Params) (s : State) : (dlFirstPass P s).orch = s.orch := by simp [dlFirstPass]
@[simp] theorem dlFirstPass_cipher (P : Params) (s : State) : (dlFirstPass P s).cipher = s.cipher := by simp [dlFirstPass]
@[simp] theorem dlFirstPass_table (P : Params) (s : State) : (dlFirstPass P s).table = s.table := by simp [dlFirstPass]
@[simp] theorem dlFirstPass_crc (P : Params) (s : State) : (dlFirstPass P s).crc = s.crc := by simp [dlFirstPass]
@[simp] theorem dlFirstPass_subst (P : Params) (s : State) : (dlFirstPass P s).subst = s.subst := by simp [dlFirstPass]
@[simp] theorem dlFirstPass_temp (P : Params) (s : State) : (dlFirstPass P s).temp = s.temp := by simp [dlFirstPass]
@[simp] theorem dlFirstPass_rev (P : Params) (s : State) : (dlFirstPass P s).rev = s.rev := by simp [dlFirstPass]

/-! dlSecondPass -/

@[simp] theorem dlSecondPass_events (P : Params) (s : State) : (dlSecondPass P s).events = s.events := by simp [dlSecondPass]
@[simp] theorem dlSecondPass_latches (P : Params) (s : State) : (dlSecondPass P s).latches = s.latches := by simp [dlSecondPass]
@[simp] theorem dlSecondPass_status (P : Params) (s : State) : (dlSecondPass P s).status = s.status := by simp [dlSecondPass]
@[simp] theorem dlSecondPass_orch (P : Params) (s : State) : (dlSecondPass P s).orch = s.orch := by simp [dlSecondPass]
@[simp] theorem dlSecondPass_cipher (P : Params) (s : State) : (dlSecondPass P s).cipher = s.cipher := by simp [dlSecondPass]
@[simp] theorem dlSecondPass_table (P : Params) (s : State) : (dlSecondPass P s).table = s.table := by simp [dlSecondPass]
@[simp] theorem dlSecondPass_crc (P : Params) (s : State) : (dlSecondPass P s).crc = s.crc := by simp [dlSecondPass]
@[simp] theorem dlSecondPass_subst (P : Params) (s : State) : (dlSecondPass P s).subst = s.subst := by simp [dlSecondPass]
@[simp] theorem dlSecondPass_temp (P : Params) (s : State) : (dlSecondPass P s).temp = s.temp := by simp [dlSecondPass]
@[simp] theorem dlSecondPass_rev (P : Params) (s : State) : (dlSecondPass P s).rev = s.rev := by simp [dlSecondPass]

/-! dlEmit -/

@[simp] theorem dlEmit_events (s : State) : (dlEmit s).events = s.events := by simp [dlEmit]
@[simp] theorem dlEmit_latches (s : State) : (dlEmit s).latches = s.latches := by simp [dlEmit]
@[simp] theorem dlEmit_status (s : State) : (dlEmit s).status = s.status := by simp [dlEmit]
@[simp] theorem dlEmit_orch (s : State) : (dlEmit s).orch = s.orch := by simp [dlEmit]
@[simp] theorem dlEmit_cipher (s : State) : (dlEmit s).cipher = s.cipher := by simp [dlEmit]
@[simp] theorem dlEmit_table (s : State) : (dlEmit s).table = s.table := by simp [dlEmit]
@[simp] theorem dlEmit_crc (s : State) : (dlEmit s).crc = s.crc := by simp [dlEmit]
@[simp] theorem dlEmit_subst (s : State) : (dlEmit s).subst = s.subst := by simp [dlEmit]
@[simp] theorem dlEmit_perm (s : State) : (dlEmit s).perm = s.perm := by simp [dlEmit]
@[simp] theorem dlEmit_temp (s : State) : (dlEmit s).temp = s.temp := by simp [dlEmit]
@[simp] theorem dlEmit_loops (s : State) : (dlEmit s).loops = s.loops := by simp [dlEmit]
@[simp] theorem dlEmit_rev (s : State) : (dlEmit s).rev = s.rev := by simp [dlEmit]
@[simp] theorem dlEmit_occasion (s : State) : (dlEmit s).occasion = s.occasion := by simp [dlEmit]

/-! dlAssemble -/

@[simp] theorem dlAssemble_events (s : State) : (dlAssemble s).events = s.events := by simp [dlAssemble]
@[simp] theorem dlAssemble_latches (s : State) : (dlAssemble s).latches = s.latches := by simp [dlAssemble]
@[simp] theorem dlAssemble_status (s : State) : (dlAssemble s).status = s.status := by simp [dlAssemble]
@[simp] theorem dlAssemble_orch (s : State) : (dlAssemble s).orch = s.orch := by simp [dlAssemble]
@[simp] theorem dlAssemble_cipher (s : State) : (dlAssemble s).cipher = s.cipher := by simp [dlAssemble]
@[simp] theorem dlAssemble_table (s : State) : (dlAssemble s).table = s.table := by simp [dlAssemble]
@[simp] theorem dlAssemble_subst (s : State) : (dlAssemble s).subst = s.subst := by simp [dlAssemble]
@[simp] theorem dlAssemble_perm (s : State) : (dlAssemble s).perm = s.perm := by simp [dlAssemble]
@[simp] theorem dlAssemble_rev (s : State) : (dlAssemble s).rev = s.rev := by simp [dlAssemble]

/-! dlbuild -/

@[simp] theorem dlbuild_events (P : Params) (s : State) : (dlbuild P s).events = s.events := by simp [dlbuild]
@[simp] theorem dlbuild_latches (P : Params) (s : State) : (dlbuild P s).latches = s.latches := by simp [dlbuild]
@[simp] theorem dlbuild_status (P : Params) (s : State) : (dlbuild P s).status = s.status := by simp [dlbuild]
@[simp] theorem dlbuild_orch (P : Params) (s : State) : (dlbuild P s).orch = s.orch := by simp [dlbuild]
@[simp] theorem dlbuild_cipher (P : Params) (s : State) : (dlbuild P s).cipher = s.cipher := by simp [dlbuild]
@[simp] theorem dlbuild_table (P : Params) (s : State) : (dlbuild P s).table = s.table := by simp [dlbuild]
@[simp] theorem dlbuild_subst (P : Params) (s : State) : (dlbuild P s).subst = s.subst := by simp [dlbuild]
@[simp] theorem dlbuild_rev (P : Params) (s : State) : (dlbuild P s).rev = s.rev := by simp [dlbuild]

/-! runCommand -/

@[simp] theorem runCommand_events (P : Params) (c : Command) (s : State) : (runCommand P c s).events = s.events := by simp [runCommand]
@[simp] theorem runCommand_latches (P : Params) (c : Command) (s : State) : (runCommand P c s).latches = s.latches := by simp [runCommand]
@[simp] theorem runCommand_rev (P : Params) (c : Command) (s : State) : (runCommand P c s).rev = s.rev := by simp [runCommand]

/-! What the operations write -/

@[simp] theorem State.popEvent_events (s : State) : s.popEvent.events = s.events.tail := rfl
@[simp] theorem acceptRequest_status (r : Request) (s : State) :
    (acceptRequest r s).status = { s.status with done := false, err := false, cause := .none } := rfl
@[simp] theorem acceptRequest_latches (r : Request) (s : State) :
    (acceptRequest r s).latches = ⟨r.cmd, r.ops.param, r.ops.ident, r.ops.counter, r.ops.rnd⟩ := rfl
@[simp] theorem acceptRequest_mem (r : Request) (s : State) :
    (acceptRequest r s).mem = { s.mem with hfout := [], dlout := [] } := rfl
@[simp] theorem raiseUnknownCommand_status (s : State) :
    (raiseUnknownCommand s).status = ⟨.err, false, true, .unknownCommand⟩ := rfl
@[simp] theorem raiseUnknownCommand_mem (s : State) :
    (raiseUnknownCommand s).mem = { s.mem with hfout := [], dlout := [] } := rfl
@[simp] theorem completeEncode_status (s : State) :
    (completeEncode s).status = { s.status with phase := .done, done := true } := rfl
@[simp] theorem lookupControl_orch (P : Params) (c : Command) (s : State) :
    (lookupControl P c s).orch = { s.orch with cc := controlCode P c, isPair := isPairFlag (controlCode P c) } := rfl
@[simp] theorem loadParam_cc (c : Command) (s : State) : (loadParam c s).orch.cc = s.orch.cc := by cases c <;> rfl
@[simp] theorem loadParam_isPair (c : Command) (s : State) : (loadParam c s).orch.isPair = s.orch.isPair := by
  cases c <;> rfl
@[simp] theorem loadParam_pb (c : Command) (s : State) :
    (loadParam c s).orch.pb = if takesParam c then paramBlock (clamp s.latches.param) else #v[0, 0, 0] := by
  cases c <;> rfl
@[simp] theorem loadParam_pcl (c : Command) (s : State) :
    (loadParam c s).orch.pcl = if takesParam c then clamp s.latches.param else s.orch.pcl := by
  cases c <;> rfl
@[simp] theorem crc16fOn_crcf (b : Space) (i n : Nat) (a : Half) (s : State) :
    (crc16fOn b i n a s).crc.crcf = s.crc.crcf := rfl
@[simp] theorem dtabOn_table (P : Params) (s : State) : (dtabOn P s).table = dtab P := by simp [dtabOn]
@[simp] theorem obfOn_table (P : Params) (b : Space) (i n : Nat) (k : Byte) (s : State) :
    (obfOn P b i n k s).table = dtab P := rfl
@[simp] theorem hfbuild_table (P : Params) (s : State) : (hfbuild P s).table = dtab P := by simp [hfbuild, hfWholePass]

@[simp] theorem lookupControl_pb (P : Params) (c : Command) (s : State) : (lookupControl P c s).orch.pb = s.orch.pb := rfl
@[simp] theorem crc16fOn_crca (b : Space) (i n : Nat) (a : Half) (s : State) :
    (crc16fOn b i n a s).crc.crca =
      crc16f ((s.buf b).slice i (spanLen (bufSize b) i n)) 0 (spanLen (bufSize b) i n) a := rfl
@[simp] theorem obfOn_subst (P : Params) (b : Space) (i n : Nat) (k : Byte) (s : State) :
    (obfOn P b i n k s).subst =
      { ob  := ((dtabOn P s).buf b).get (i + 1)
        oi  := selectorIndex (((dtabOn P s).buf b).get (i + 1))
        obp := selectorByte (dtab P) (((dtabOn P s).buf b).get (i + 1)) } := by
  simp [obfOn]

/-! What the buffers hold afterwards -/

theorem bufferOf_replaceBuffer (m : Buffers) (b c : Space) (new : Memory) :
    bufferOf (replaceBuffer m b new) c = if c = b then new else bufferOf m c := by
  cases b <;> cases c <;> rfl

@[simp] theorem State.setBuf_mem (s : State) (b : Space) (new : Memory) :
    (s.setBuf b new).mem = replaceBuffer s.mem b new := rfl

theorem State.buf_setBuf (s : State) (b c : Space) (new : Memory) :
    (s.setBuf b new).buf c = if c = b then new else s.buf c :=
  bufferOf_replaceBuffer s.mem b c new

@[simp] theorem State.buf_setBuf_self (s : State) (b : Space) (new : Memory) : (s.setBuf b new).buf b = new := by
  simp [State.buf_setBuf]

@[simp] theorem State.buf_popEvent (s : State) (c : Space) : s.popEvent.buf c = s.buf c := rfl
@[simp] theorem State.buf_loopsDone (s : State) (c : Space) : s.loopsDone.buf c = s.buf c := rfl
@[simp] theorem completeEncode_buf (s : State) (c : Space) : (completeEncode s).buf c = s.buf c := rfl
@[simp] theorem lookupControl_buf (P : Params) (d : Command) (s : State) (c : Space) :
    (lookupControl P d s).buf c = s.buf c := rfl
@[simp] theorem loadParam_buf (d : Command) (s : State) (c : Space) : (loadParam d s).buf c = s.buf c := rfl
@[simp] theorem crc16fOn_buf (b : Space) (i n : Nat) (a : Half) (s : State) (c : Space) :
    (crc16fOn b i n a s).buf c = s.buf c := by simp [State.buf]
@[simp] theorem crc16rOn_buf (s : State) (c : Space) : (crc16rOn s).buf c = s.buf c := by simp [State.buf]

theorem acceptRequest_buf (r : Request) (s : State) (c : Space) :
    (acceptRequest r s).buf c = if c = .hfout ∨ c = .dlout then [] else s.buf c := by
  cases c <;> rfl

theorem raiseUnknownCommand_buf (s : State) (c : Space) :
    (raiseUnknownCommand s).buf c = if c = .hfout ∨ c = .dlout then [] else s.buf c := by
  cases c <;> rfl

theorem blkencOf_buf (P : Params) (v : Vector Byte 8) (s : State) (c : Space) :
    (blkencOf P v s).buf c = if c = .blk then (s.buf .blk).writeRange 0 (blkenc P v).toList else s.buf c := by
  simp only [State.buf, blkencOf, State.loopsDone_mem]
  cases c <;> rfl

theorem dtabOn_buf (P : Params) (s : State) (c : Space) :
    (dtabOn P s).buf c =
      if c = .blk then
        ((s.buf .blk).writeRange 0 (blkenc P (seedLow P)).toList).writeRange 0 (blkenc P (seedHigh P)).toList
      else s.buf c := by
  have h : ∀ c, (dtabOn P s).buf c = (blkencOf P (seedHigh P) (blkencOf P (seedLow P) s)).buf c := fun _ => rfl
  rw [h, blkencOf_buf, blkencOf_buf, blkencOf_buf]
  split <;> simp

theorem obfOn_buf (P : Params) (b : Space) (i n : Nat) (k : Byte) (s : State) (c : Space) :
    (obfOn P b i n k s).buf c =
      if c = b then
        ((dtabOn P s).buf b).writeRange i
          (obfLoop (dtab P) (selectorByte (dtab P) (((dtabOn P s).buf b).get (i + 1))) k 0 (spanLen (bufSize b) i n)
            (((dtabOn P s).buf b).slice i (spanLen (bufSize b) i n)))
      else (dtabOn P s).buf c := by
  simp only [obfOn, State.buf_loopsDone, State.buf_setBuf, dtabOn_table]
  rfl

theorem permOn_buf (P : Params) (b : Space) (n : Nat) (k : Byte) (s : State) (c : Space) :
    (permOn P b n k s).buf c =
      if c = b then
        (s.buf b).writeRange 0 (permBytes P (pkInit P k) ((s.buf b).slice 0 (spanLen (bufSize b) 0 n)))
      else s.buf c := by
  simp only [permOn, State.buf_loopsDone, State.buf_setBuf]
  rfl

end Sys2Proof.Machine
end

