-- ==== Sys2Proof/Laws/Units.lean ====
section
/-! SUPPORT. One spec lemma per loop of a unit operation: what it does at each position. -/

namespace Sys2Proof.Machine

open Sys2Proof.Config

theorem Memory.getElem?_slice (m : Memory) (start n k : Nat) :
    (m.slice start n)[k]? = if k < n then some (m.get (start + k)) else none := by
  by_cases h : k < n <;> simp [Memory.slice, h]

theorem Memory.get_of_read {m : Memory} {i : Nat} {b : Byte} (h : m.read i = some b) : m.get i = b := by
  simp [Memory.get, h]

/-! ### CRC16F -/

theorem crc16f_zero (B : List Byte) (start : Nat) (a : Half) : crc16f B start 0 a = a := rfl

theorem crc16f_succ (B : List Byte) (start n : Nat) (a : Half) :
    crc16f B start (n + 1) a = crcPosition B start (crc16f B start n a) n := by
  simp [crc16f, List.range_succ]

/-- CRC16F reads the bytes in range and nothing else. -/
theorem crc16f_congr {B C : List Byte} {start start' n : Nat} {a : Half}
    (h : ∀ j < n, B[start + j]? = C[start' + j]?) : crc16f B start n a = crc16f C start' n a := by
  induction n with
  | zero => rfl
  | succ n ih =>
    rw [crc16f_succ, crc16f_succ, ih fun j hj => h j (by omega), crcPosition, crcPosition, h n (by omega)]

/-! ### OBF -/

theorem obfLoop_succ (T : Vector Byte 16) (obp key : Byte) (start n : Nat) (B : List Byte) :
    obfLoop T obp key start (n + 1) B = obfPosition T obp key start (obfLoop T obp key start n B) n := by
  simp [obfLoop, List.range_succ]

theorem getElem?_obfPosition (T : Vector Byte 16) (obp key : Byte) (start : Nat) (B : List Byte) (j p : Nat) :
    (obfPosition T obp key start B j)[p]? = if p = start + j then (B[p]?).map (obfByte T obp key j) else B[p]? := by
  unfold obfPosition
  split
  · next old h =>
    obtain ⟨hlt, -⟩ := List.getElem?_eq_some_iff.1 h
    by_cases hp : p = start + j
    · subst hp; rw [List.getElem?_set_self hlt, if_pos rfl, h]; rfl
    · rw [List.getElem?_set_ne (Ne.symm hp), if_neg hp]
  · next h =>
    by_cases hp : p = start + j
    · subst hp; simp [h]
    · rw [if_neg hp]

/-- The loop of OBF position by position: the positions in range take their new byte, the others keep theirs. -/
theorem getElem?_obfLoop (T : Vector Byte 16) (obp key : Byte) (start length : Nat) (B : List Byte) (p : Nat) :
    (obfLoop T obp key start length B)[p]? =
      if start ≤ p ∧ p < start + length then (B[p]?).map (obfByte T obp key (p - start)) else B[p]? := by
  induction length with
  | zero => simp [obfLoop]
  | succ n ih =>
    rw [obfLoop_succ, getElem?_obfPosition]
    by_cases h : p = start + n
    · subst h
      rw [if_pos rfl, ih, if_neg (by omega), if_pos (by omega), Nat.add_sub_cancel_left]
    · rw [if_neg h, ih]
      split_ifs <;> first | rfl | omega

@[simp] theorem length_obfLoop (T : Vector Byte 16) (obp key : Byte) (start length : Nat) (B : List Byte) :
    (obfLoop T obp key start length B).length = B.length := by
  induction length with
  | zero => rfl
  | succ n ih =>
    rw [obfLoop_succ, obfPosition]
    split <;> simp [ih]

/-- OBF on a fully written buffer of the state is `obfuscate` on its bytes. -/
theorem obfOn_fullBuffer {P : Params} {b : Space} {start length : Nat} {key : Byte} {s : State} {B : List Byte}
    (hb : b ≠ .blk) (hs : s.buf b = Memory.ofBytes 0 B) (hB : B.length ≤ bufSize b)
    (hr : start + length ≤ B.length) (h1 : start + 1 < B.length) (c : Space) :
    (obfOn P b start length key s).buf c =
      if c = b then Memory.ofBytes 0 ((obf (dtab P) B start length key).getD B) else (dtabOn P s).buf c := by
  have hd : (dtabOn P s).buf b = Memory.ofBytes 0 B := by rw [dtabOn_buf, if_neg hb, hs]
  have hn : spanLen (bufSize b) start length = length := by unfold spanLen; omega
  have hsel : (Memory.ofBytes 0 B).get (start + 1) = B[start + 1] := by simp [Memory.get_ofBytes, h1]
  rw [obfOn_buf, hd, hn, hsel]
  congr 1
  simp only [obf, List.getElem?_eq_getElem h1, Option.getD_some]
  refine Memory.ext_of_read (size := B.length) (Memory.writeRange_wf (Memory.ofBytes_wf (by omega)) (by simpa using hr))
    (Memory.ofBytes_wf (by simp)) fun k => ?_
  rw [Memory.read_writeRange, Memory.read_ofBytes, Memory.read_ofBytes, if_pos (Nat.zero_le k),
    if_pos (Nat.zero_le k), getElem?_obfLoop, getElem?_obfLoop, Memory.getElem?_slice, length_obfLoop,
    Memory.length_slice]
  simp only [Nat.sub_zero]
  by_cases hk : start ≤ k ∧ k < start + length
  · rw [if_pos hk, if_pos (by omega), if_pos (by omega), if_pos hk, show start + (k - start) = k by omega,
      Memory.get_ofBytes, List.getD_eq_getElem?_getD, List.getElem?_eq_getElem (by omega)]
    simp
  · rw [if_neg hk, if_neg hk]

/-! ### PERM -/

@[simp] theorem length_permBytes (P : Params) (pk : Byte) (bs : List Byte) :
    (permBytes P pk bs).length = bs.length := by
  induction bs generalizing pk with
  | nil => rfl
  | cons b bs ih => simp [permBytes, ih]

/-- The processed key steps eight times for each byte and does not read the byte. -/
theorem pk_permByte (P : Params) (pk b : Byte) : (permByte P pk b).pk = P.pkStep^[8] pk := rfl

/-- PERM on a fully written buffer of the state is `permute` on its bytes. -/
theorem permOn_fullBuffer {P : Params} {b : Space} {length : Nat} {key : Byte} {s : State} {B : List Byte}
    (hs : s.buf b = Memory.ofBytes 0 B) (hB : B.length ≤ bufSize b) (hr : length ≤ B.length) (c : Space) :
    (permOn P b length key s).buf c = if c = b then Memory.ofBytes 0 (perm P B length key) else s.buf c := by
  have hn : spanLen (bufSize b) 0 length = length := by unfold spanLen; omega
  rw [permOn_buf, hs, hn, Memory.slice_ofBytes B 0 length (by omega), List.drop_zero]
  congr 1
  refine Memory.ext_of_read (size := B.length) (Memory.writeRange_wf (Memory.ofBytes_wf (by omega)) (by simp))
    (Memory.ofBytes_wf (by simp [perm]; omega)) fun k => ?_
  rw [Memory.read_writeRange, Memory.read_ofBytes, Memory.read_ofBytes, if_pos (Nat.zero_le k), if_pos (Nat.zero_le k),
    perm, length_permBytes, List.length_take]
  simp only [Nat.sub_zero]
  by_cases hk : k < length
  · rw [if_pos (by omega), List.getElem?_append_left (by simp; omega)]
  · rw [if_neg (by omega), List.getElem?_append_right (by simp; omega)]
    simp only [length_permBytes, List.length_take, List.getElem?_drop]
    congr 1
    omega

end Sys2Proof.Machine
end

