-- ==== Sys2Proof/Laws/Builders.lean ====
section
/-! SUPPORT. What the two frame builders leave in the buffers, as closed forms over lists of bytes. -/

namespace Sys2Proof.Machine

open Sys2Proof.Config

/-! ### The HF frame builder -/

theorem hfLoad_buf (s : State) (c : Space) :
    (hfLoad s).buf c =
      if c = .hfcore then Memory.ofBytes 0 (hfLoaded s.latches s.orch.cc s.orch.pb) else s.buf c :=
  State.buf_setBuf ..

/-- The 14 bytes of the HF core after step 2 (45_hf_builder.md R152, R153). -/
def hfCoreParam (P : Params) (s : State) : List Byte :=
  if s.orch.isPair then (hfLoaded s.latches s.orch.cc s.orch.pb).take 11 ++ pairMarker
  else (obf (dtab P) (hfLoaded s.latches s.orch.cc s.orch.pb) 9 5 0xAA).getD []

/-- The 16 bytes of the HF core after step 3 (45_hf_builder.md R154). -/
def hfCoreChecked (P : Params) (s : State) : List Byte :=
  hfCoreParam P s ++ [low8 (crc16f (hfCoreParam P s) 0 13 0), high8 (crc16f (hfCoreParam P s) 0 13 0)]

/-- The 16 bytes of the HF core after step 4 (45_hf_builder.md R155). -/
def hfCoreFinal (P : Params) (s : State) : List Byte :=
  (obf (dtab P) (hfCoreChecked P s) 0 16 0x56).getD []

theorem obf_eq_some {T : Vector Byte 16} {B : List Byte} {start length : Nat} {key : Byte} (h : start + 1 < B.length) :
    obf T B start length key = some (obfLoop T (selectorByte T B[start + 1]) key start length B) := by
  simp [obf, h]

@[simp] theorem length_hfLoaded (l : Latches) (cc : Byte) (pb : Vector Byte 3) : (hfLoaded l cc pb).length = 14 := rfl

@[simp] theorem length_hfCoreParam (P : Params) (s : State) : (hfCoreParam P s).length = 14 := by
  unfold hfCoreParam
  split
  · rfl
  · rw [obf_eq_some (by simp)]; simp

@[simp] theorem length_hfCoreChecked (P : Params) (s : State) : (hfCoreChecked P s).length = 16 := by
  simp [hfCoreChecked]

@[simp] theorem length_hfCoreFinal (P : Params) (s : State) : (hfCoreFinal P s).length = 16 := by
  rw [hfCoreFinal, obf_eq_some (by simp)]; simp

theorem hfLoaded_eq (s : State) :
    hfLoaded s.latches s.orch.cc s.orch.pb =
      [0xFF, s.latches.rnd, low8 s.latches.counter, s.latches.ident[0], s.latches.ident[1] &&& 0xF0, 0x00, 0x00,
       s.orch.cc, 0x03, 0xFF, low8 s.latches.counter, s.orch.pb[0], s.orch.pb[1], s.orch.pb[2]] := rfl

/-- Step 2 as a function on bytes, in both forms. -/
theorem hfCoreParam_pair {P : Params} {s : State} (h : s.orch.isPair = true) :
    hfCoreParam P s = (hfLoaded s.latches s.orch.cc s.orch.pb).take 11 ++ [0xAA, 0x66, 0x55] := by
  rw [hfCoreParam, if_pos h]; rfl

theorem obf_hfLoaded {P : Params} {s : State} (h : s.orch.isPair ≠ true) :
    obf (dtab P) (hfLoaded s.latches s.orch.cc s.orch.pb) 9 5 0xAA = some (hfCoreParam P s) := by
  have e := obf_eq_some (T := dtab P) (B := hfLoaded s.latches s.orch.cc s.orch.pb) (start := 9) (length := 5)
    (key := 0xAA) (by simp)
  rw [hfCoreParam, if_neg h, e, Option.getD_some]

/-- Step 4 as a function on bytes. -/
theorem obf_hfCoreChecked (P : Params) (s : State) :
    obf (dtab P) (hfCoreChecked P s) 0 16 0x56 = some (hfCoreFinal P s) := by
  have e := obf_eq_some (T := dtab P) (B := hfCoreChecked P s) (start := 0) (length := 16) (key := 0x56) (by simp)
  rw [hfCoreFinal, e, Option.getD_some]

/-- Step 2 leaves the 14 bytes in `HFCORE` and touches nothing else but `BLK`. -/
theorem hfParamRegion_hfLoad_buf (P : Params) (s : State) (c : Space) :
    (hfParamRegion P (hfLoad s)).buf c =
      if c = .hfcore then Memory.ofBytes 0 (hfCoreParam P s)
      else if c = .blk then (hfParamRegion P (hfLoad s)).buf .blk else s.buf c := by
  by_cases hp : s.orch.isPair = true
  · have e : hfParamRegion P (hfLoad s) =
        (hfLoad s).setBuf .hfcore ((hfLoad s).mem.hfcore.writeRange 11 pairMarker) := by
      unfold hfParamRegion; rw [hfLoad_orch, if_pos hp]
    rw [e]
    cases c <;> simp [State.buf_setBuf, hfLoad_buf, hfCoreParam, hp]
    rfl
  · have e : hfParamRegion P (hfLoad s) = obfOn P .hfcore 9 5 0xAA (hfLoad s) := by
      unfold hfParamRegion; rw [hfLoad_orch, if_neg hp]
    have hb : (hfLoad s).buf .hfcore = Memory.ofBytes 0 (hfLoaded s.latches s.orch.cc s.orch.pb) := by
      rw [hfLoad_buf, if_pos rfl]
    have h := fun c => obfOn_fullBuffer (P := P) (start := 9) (length := 5) (key := 0xAA) (by decide) hb
      (by simp [bufSize]) (by simp) (by simp) c
    rw [e, h, h]
    by_cases hc : c = .hfcore
    · rw [if_pos hc, if_pos hc, hfCoreParam, if_neg hp, obf_eq_some (by simp)]; rfl
    · cases c <;> simp_all [dtabOn_buf, hfLoad_buf]

theorem hfCheck_buf {s : State} {B : List Byte} (hB : B.length = 13) (h : (s.buf .hfcore).slice 0 13 = B)
    (c : Space) :
    (hfCheck s).buf c =
      if c = .hfcore then
        (s.buf .hfcore).writeRange 14 [low8 (crc16f B 0 13 0), high8 (crc16f B 0 13 0)] else s.buf c := by
  subst h
  have e : hfCheck s = (crc16fOn .hfcore 0 13 0 s).setBuf .hfcore ((s.buf .hfcore).writeRange 14
      [low8 (crc16fOn .hfcore 0 13 0 s).crc.crca, high8 (crc16fOn .hfcore 0 13 0 s).crc.crca]) := rfl
  rw [e, State.buf_setBuf, crc16fOn_buf, crc16fOn_crca]
  rfl

theorem crc16f_take {B : List Byte} {n : Nat} (a : Half) : crc16f (B.take n) 0 n a = crc16f B 0 n a :=
  crc16f_congr fun j hj => by rw [List.getElem?_take, if_pos (by omega)]

/-- Step 3 leaves the 16 bytes in `HFCORE`. -/
theorem hfCheck_hfParamRegion_buf (P : Params) (s : State) (c : Space) :
    (hfCheck (hfParamRegion P (hfLoad s))).buf c =
      if c = .hfcore then Memory.ofBytes 0 (hfCoreChecked P s) else (hfParamRegion P (hfLoad s)).buf c := by
  have h2 : (hfParamRegion P (hfLoad s)).buf .hfcore = Memory.ofBytes 0 (hfCoreParam P s) := by
    rw [hfParamRegion_hfLoad_buf, if_pos rfl]
  have h3 : ((hfParamRegion P (hfLoad s)).buf .hfcore).slice 0 13 = (hfCoreParam P s).take 13 := by
    rw [h2, Memory.slice_ofBytes _ _ _ (by simp), List.drop_zero]
  rw [hfCheck_buf (by simp) h3, crc16f_take, h2]
  split
  · refine Memory.ext_of_read (size := 16) (Memory.writeRange_wf (Memory.ofBytes_wf (by simp)) (by simp))
      (Memory.ofBytes_wf (by simp)) fun k => ?_
    rw [Memory.read_writeRange, Memory.read_ofBytes, Memory.read_ofBytes, if_pos (Nat.zero_le _),
      if_pos (Nat.zero_le _), hfCoreChecked]
    simp only [Nat.sub_zero, List.length_cons, List.length_nil]
    by_cases h : k < 14
    · rw [if_neg (by omega), List.getElem?_append_left (by simpa using h)]
    · rw [List.getElem?_append_right (by simp; omega), length_hfCoreParam]
      split
      · rfl
      · rw [List.getElem?_eq_none (by simp; omega), List.getElem?_eq_none (by simp; omega)]
  · rfl

/-- What HFBUILD leaves in the buffers: the core, the frame, and `BLK`, through which DTAB runs. -/
theorem hfbuild_buf (P : Params) (s : State) (c : Space) :
    (hfbuild P s).buf c =
      if c = .hfout then Memory.ofBytes 0 (hfFrameHead ++ hfCoreFinal P s ++ hfFrameTail)
      else if c = .hfcore then Memory.ofBytes 0 (hfCoreFinal P s)
      else if c = .blk then (hfbuild P s).buf .blk else s.buf c := by
  have h3 : (hfCheck (hfParamRegion P (hfLoad s))).buf .hfcore = Memory.ofBytes 0 (hfCoreChecked P s) := by
    rw [hfCheck_hfParamRegion_buf, if_pos rfl]
  have h4 : ∀ c, (hfWholePass P (hfCheck (hfParamRegion P (hfLoad s)))).buf c =
      if c = .hfcore then Memory.ofBytes 0 (hfCoreFinal P s)
      else (dtabOn P (hfCheck (hfParamRegion P (hfLoad s)))).buf c := by
    intro c
    have h := obfOn_fullBuffer (P := P) (start := 0) (length := 16) (key := 0x56) (by decide) h3 (by simp [bufSize])
      (by simp) (by simp) c
    rw [obf_eq_some (by simp)] at h
    rw [hfCoreFinal, obf_eq_some (by simp)]
    exact h
  have h5 : ∀ c, (hfbuild P s).buf c =
      if c = .hfout then Memory.ofBytes 0 (hfFrameHead ++ hfCoreFinal P s ++ hfFrameTail)
      else (hfWholePass P (hfCheck (hfParamRegion P (hfLoad s)))).buf c := by
    intro c
    have e : hfbuild P s = (hfWholePass P (hfCheck (hfParamRegion P (hfLoad s)))).setBuf .hfout (Memory.ofBytes 0
        (hfFrameHead ++ ((hfWholePass P (hfCheck (hfParamRegion P (hfLoad s)))).buf .hfcore).slice 0 16 ++
          hfFrameTail)) := rfl
    rw [e, State.buf_setBuf, h4 .hfcore, if_pos rfl, Memory.slice_ofBytes _ _ _ (by simp), List.drop_zero,
      List.take_of_length_le (by simp)]
  rw [h5, h5 .blk, h4, h4 .blk]
  simp only [dtabOn_buf, hfCheck_hfParamRegion_buf]
  rw [hfParamRegion_hfLoad_buf P s c]
  cases c <;> simp

/-- HFBUILD leaves the CRC of the core's first 13 bytes in `CRCA`. -/
theorem hfbuild_crc (P : Params) (s : State) :
    (hfbuild P s).crc = { s.crc with crca := crc16f (hfCoreParam P s) 0 13 0 } := by
  have e : (hfbuild P s).crc = (hfCheck (hfParamRegion P (hfLoad s))).crc := by simp [hfbuild]
  have e2 : (hfCheck (hfParamRegion P (hfLoad s))).crc =
      { (hfParamRegion P (hfLoad s)).crc with
        crca := (crc16fOn .hfcore 0 13 0 (hfParamRegion P (hfLoad s))).crc.crca } := rfl
  have h3 : ((hfParamRegion P (hfLoad s)).buf .hfcore).slice 0 13 = (hfCoreParam P s).take 13 := by
    rw [hfParamRegion_hfLoad_buf, if_pos rfl, Memory.slice_ofBytes _ _ _ (by simp), List.drop_zero]
  rw [e, e2, crc16fOn_crca, show spanLen (bufSize .hfcore) 0 13 = 13 from rfl, h3, crc16f_take]
  simp

/-! ### The Deli16 frame builder -/

@[simp] theorem length_dlPayload (l : Latches) (cc : Byte) (pb : Vector Byte 3) : (dlPayload l cc pb).length = 8 := rfl

/-- The CRC stream (46_deli16_builder.md R167). -/
def dlStreamBytes (s : State) : List Byte := dlCrcHead ++ (dlPayload s.latches s.orch.cc s.orch.pb).map rev8

/-- The scratch buffer after step 5: the fill, the six reversed bytes, the CRC (46_deli16_builder.md R169 to
R171). -/
def dlScratch (s : State) : List Byte :=
  List.replicate 13 0x00 ++ (dlMarker ++ dlCrcHead).map rev8 ++ dlPayload s.latches s.orch.cc s.orch.pb ++
    [low8 (crc16r (dlStreamBytes s)), high8 (crc16r (dlStreamBytes s))]

/-- The scratch buffer after step 6 (46_deli16_builder.md R172). -/
def dlScratchFirst (P : Params) (s : State) : List Byte :=
  (dlScratch s).take 16 ++ perm P ((dlScratch s).drop 16) 13 63

/-- The scratch buffer after step 7 (46_deli16_builder.md R173). -/
def dlScratchSecond (P : Params) (s : State) : List Byte := perm P (dlScratchFirst P s) 29 37

@[simp] theorem length_dlStreamBytes (s : State) : (dlStreamBytes s).length = 11 := rfl

@[simp] theorem length_dlScratch (s : State) : (dlScratch s).length = 29 := rfl

@[simp] theorem length_perm (P : Params) (B : List Byte) (n : Nat) (key : Byte) :
    (perm P B n key).length = B.length := by
  simp [perm]; omega

@[simp] theorem length_dlScratchFirst (P : Params) (s : State) : (dlScratchFirst P s).length = 29 := by
  simp [dlScratchFirst]

@[simp] theorem length_dlScratchSecond (P : Params) (s : State) : (dlScratchSecond P s).length = 29 := by
  simp [dlScratchSecond]

/-- CRC16R on a whole stream. -/
theorem crc16rOn_crc {s : State} {B : List Byte} (hB : B.length = 11) (h : (s.buf .stream).slice 0 11 = B) :
    (crc16rOn s).crc = { crca := crc16f B 0 11 0xFFFF, crcf := crc16r B } := by
  subst h
  rw [crc16r, hB]
  rfl

/-- The buffers after steps 1 to 5. -/
theorem dlAssemble_buf (s : State) (c : Space) :
    (dlAssemble s).buf c =
      if c = .pl then Memory.ofBytes 0 (dlPayload s.latches s.orch.cc s.orch.pb)
      else if c = .stream then Memory.ofBytes 0 (dlStreamBytes s)
      else if c = .scratch then Memory.ofBytes 0 (dlScratch s) else s.buf c := by
  have h1 : ∀ c, (dlCascade s).buf c =
      if c = .pl then Memory.ofBytes 0 (dlPayload s.latches s.orch.cc s.orch.pb) else s.buf c :=
    fun c => State.buf_setBuf ..
  have h2 : ∀ c, (dlStream (dlCascade s)).buf c =
      if c = .stream then Memory.ofBytes 0 (dlStreamBytes s) else (dlCascade s).buf c :=
    fun c => State.buf_setBuf ..
  have h3 : ∀ c, (dlFill (crc16rOn (dlStream (dlCascade s)))).buf c =
      if c = .scratch then Memory.ofBytes 0 (List.replicate 13 0x00 ++ dlMarker ++ dlCrcHead ++
        dlPayload s.latches s.orch.cc s.orch.pb) else (dlStream (dlCascade s)).buf c := by
    intro c
    rw [← crc16rOn_buf (dlStream (dlCascade s)) c]
    exact State.buf_setBuf ..
  have h4 : ∀ c, (dlReverse (dlFill (crc16rOn (dlStream (dlCascade s))))).buf c =
      if c = .scratch then Memory.ofBytes 0 ((dlScratch s).take 27)
      else (dlFill (crc16rOn (dlStream (dlCascade s)))).buf c := by
    intro c
    have e := State.buf_setBuf (dlFill (crc16rOn (dlStream (dlCascade s)))) .scratch c
      (((dlFill (crc16rOn (dlStream (dlCascade s)))).buf .scratch).writeRange 13
        ((((dlFill (crc16rOn (dlStream (dlCascade s)))).buf .scratch).slice 13 6).map rev8))
    rw [h3 .scratch, if_pos rfl] at e
    exact e
  have hc : (dlReverse (dlFill (crc16rOn (dlStream (dlCascade s))))).crc.crcf = crc16r (dlStreamBytes s) := by
    simp only [dlReverse_crc, dlFill_crc]
    rw [crc16rOn_crc (B := dlStreamBytes s) rfl (by rw [h2, if_pos rfl]; rfl)]
  have e := State.buf_setBuf (dlReverse (dlFill (crc16rOn (dlStream (dlCascade s))))) .scratch c
    (((dlReverse (dlFill (crc16rOn (dlStream (dlCascade s))))).buf .scratch).writeRange 27
      [low8 (crc16r (dlStreamBytes s)), high8 (crc16r (dlStreamBytes s))])
  rw [h4 .scratch, if_pos rfl, ← hc] at e
  refine Eq.trans (Eq.trans rfl e) ?_
  rw [h4, h3, h2, h1, hc]
  cases c <;> rfl

/-- The CRC registers after steps 1 to 5. -/
theorem dlAssemble_crc (s : State) :
    (dlAssemble s).crc = { crca := crc16f (dlStreamBytes s) 0 11 0xFFFF, crcf := crc16r (dlStreamBytes s) } := by
  have h : ((dlStream (dlCascade s)).buf .stream).slice 0 11 = dlStreamBytes s := rfl
  simp only [dlAssemble, dlStoreCrc_crc, dlReverse_crc, dlFill_crc]
  exact crc16rOn_crc rfl h

/-- The buffers after step 6, from a whole scratch buffer. -/
theorem dlFirstPass_buf {P : Params} {s : State} {S : List Byte} (hS : S.length = 29)
    (h : s.buf .scratch = Memory.ofBytes 0 S) (c : Space) :
    (dlFirstPass P s).buf c =
      if c = .scratch then Memory.ofBytes 0 (S.take 16 ++ perm P (S.drop 16) 13 63)
      else if c = .sub then Memory.ofBytes 0 (perm P (S.drop 16) 13 63) else s.buf c := by
  have hsl : (s.buf .scratch).slice 16 13 = S.drop 16 := by
    rw [h, Memory.slice_ofBytes _ _ _ (by omega), List.take_of_length_le (by simp [hS])]
  have hp : ∀ c, (permOn P .sub 13 63 (s.setBuf .sub (Memory.ofBytes 0 (S.drop 16)))).buf c =
      if c = .sub then Memory.ofBytes 0 (perm P (S.drop 16) 13 63) else s.buf c := by
    intro c
    rw [permOn_fullBuffer (B := S.drop 16) (State.buf_setBuf_self ..) (by simp [hS, bufSize]) (by simp [hS]),
      State.buf_setBuf]
    split <;> rfl
  have e : ∀ c, (dlFirstPass P s).buf c =
      if c = .scratch then
        ((permOn P .sub 13 63 (s.setBuf .sub (Memory.ofBytes 0 ((s.buf .scratch).slice 16 13)))).buf .scratch).writeRange
          16 (((permOn P .sub 13 63 (s.setBuf .sub (Memory.ofBytes 0 ((s.buf .scratch).slice 16 13)))).buf .sub).slice
            0 13)
      else (permOn P .sub 13 63 (s.setBuf .sub (Memory.ofBytes 0 ((s.buf .scratch).slice 16 13)))).buf c :=
    fun c => State.buf_setBuf ..
  rw [e, hsl, hp .scratch, hp .sub, hp c, if_pos rfl, if_neg (show Space.scratch ≠ .sub by decide), h, Memory.slice_ofBytes _ _ _ (by simp [hS]), List.drop_zero,
    List.take_of_length_le (by simp [hS])]
  split
  · refine Memory.ext_of_read (size := 29) (Memory.writeRange_wf (Memory.ofBytes_wf (by omega)) (by simp [hS]))
      (Memory.ofBytes_wf (by simp [hS])) fun k => ?_
    rw [Memory.read_writeRange, Memory.read_ofBytes, Memory.read_ofBytes, if_pos (Nat.zero_le _), if_pos (Nat.zero_le _)]
    simp only [Nat.sub_zero, length_perm, List.length_drop, hS]
    by_cases hk : k < 16
    · rw [if_neg (by omega), List.getElem?_append_left (by simp [hS]; omega), List.getElem?_take, if_pos hk]
    · rw [List.getElem?_append_right (by simp [hS]; omega)]
      simp only [List.length_take, hS]
      split
      · rfl
      · rw [List.getElem?_eq_none (by omega), List.getElem?_eq_none (by simp [hS]; omega)]
  · rfl

/-- What DLBUILD leaves in the buffers. -/
theorem dlbuild_buf (P : Params) (s : State) (c : Space) :
    (dlbuild P s).buf c =
      if c = .dlout then Memory.ofBytes 0 (((dlScratchSecond P s).drop 13).take 16 ++ dlFiller)
      else if c = .scratch then Memory.ofBytes 0 (dlScratchSecond P s)
      else if c = .sub then Memory.ofBytes 0 (perm P ((dlScratch s).drop 16) 13 63)
      else if c = .pl then Memory.ofBytes 0 (dlPayload s.latches s.orch.cc s.orch.pb)
      else if c = .stream then Memory.ofBytes 0 (dlStreamBytes s) else s.buf c := by
  have h6 := dlFirstPass_buf (P := P) (s := dlAssemble s) (length_dlScratch s) (by rw [dlAssemble_buf]; rfl)
  have h7 : ∀ c, (dlSecondPass P (dlFirstPass P (dlAssemble s))).buf c =
      if c = .scratch then Memory.ofBytes 0 (dlScratchSecond P s) else (dlFirstPass P (dlAssemble s)).buf c := by
    intro c
    exact permOn_fullBuffer (B := dlScratchFirst P s) (by rw [h6, if_pos rfl]; rfl) (by simp [bufSize]) (by simp) c
  have e := State.buf_setBuf (dlSecondPass P (dlFirstPass P (dlAssemble s))) .dlout c
    (Memory.ofBytes 0 (((dlSecondPass P (dlFirstPass P (dlAssemble s))).buf .scratch).slice 13 16 ++ dlFiller))
  rw [h7 .scratch, if_pos rfl, Memory.slice_ofBytes _ _ _ (by simp), h7, h6, dlAssemble_buf] at e
  have e2 : (dlbuild P s).buf c = (State.setBuf (dlSecondPass P (dlFirstPass P (dlAssemble s))) .dlout
    (Memory.ofBytes 0 (((dlSecondPass P (dlFirstPass P (dlAssemble s))).buf .scratch).slice 13 16 ++ dlFiller))).buf c := rfl
  rw [h7 .scratch, if_pos rfl, Memory.slice_ofBytes _ _ _ (by simp)] at e2
  rw [e2, e]
  cases c <;> simp

/-- DLBUILD leaves the CRC of its stream in the CRC registers. -/
theorem dlbuild_crc (P : Params) (s : State) :
    (dlbuild P s).crc = { crca := crc16f (dlStreamBytes s) 0 11 0xFFFF, crcf := crc16r (dlStreamBytes s) } := by
  rw [← dlAssemble_crc]
  simp [dlbuild]

end Sys2Proof.Machine
end

