-- ==== Sys2Proof/Laws/Commands.lean ====
section
/-! SUPPORT. What the five commands and ENCODE leave: which registers, and the two frames as closed forms. -/

namespace Sys2Proof.Machine

open Sys2Proof.Config

@[simp] theorem ofCode_code (c : Command) : Command.ofCode c.code = some c := by cases c <;> rfl

/-- A code that selects no command. -/
theorem ofCode_eq_none {k : BitVec 3} (h : 5 ≤ k.toNat) : Command.ofCode k = none := by
  revert h; revert k; decide

/-- A code that selects a command is that command's code. -/
theorem code_of_ofCode {k : BitVec 3} {c : Command} (h : Command.ofCode k = some c) : c.code = k := by
  have h2 : ∀ k : BitVec 3, ∀ c ∈ Command.ofCode k, c.code = k := by decide
  exact h2 k c h

theorem ofCode_isSome {k : BitVec 3} (h : k.toNat ≤ 4) : ∃ c, Command.ofCode k = some c := by
  have h2 : ∀ k : BitVec 3, k.toNat ≤ 4 → (Command.ofCode k).isSome = true := by decide
  exact Option.isSome_iff_exists.1 (h2 k h)

/-- A command's meaning is ENCODE with its code. -/
theorem exec_instr (c : Command) (o : ReqOperands) (s : State) :
    exec (c.instr o) s = .next (runCommand params c (acceptRequest ⟨c.code, o⟩ s)) := by
  cases c <;> rfl

theorem exec_encode_some {r : Request} {c : Command} (h : Command.ofCode r.cmd = some c) (s : State) :
    exec (.encode r) s = .next (runCommand params c (acceptRequest r s)) := by
  simp [exec, execEncode, encodeOn, h]

theorem exec_encode_none {r : Request} (h : Command.ofCode r.cmd = none) (s : State) :
    exec (.encode r) s = .next (raiseUnknownCommand (acceptRequest r s)) := by
  simp [exec, execEncode, encodeOn, h]

/-- The state the builders start from: control code, IS_PAIR and parameter block in place. -/
def prepared (P : Params) (c : Command) (s : State) : State := loadParam c (lookupControl P c s)

@[simp] theorem prepared_latches (P : Params) (c : Command) (s : State) : (prepared P c s).latches = s.latches := rfl
@[simp] theorem prepared_events (P : Params) (c : Command) (s : State) : (prepared P c s).events = s.events := rfl
@[simp] theorem prepared_status (P : Params) (c : Command) (s : State) : (prepared P c s).status = s.status := rfl
@[simp] theorem prepared_rev (P : Params) (c : Command) (s : State) : (prepared P c s).rev = s.rev := rfl
@[simp] theorem prepared_buf (P : Params) (c : Command) (s : State) (b : Space) : (prepared P c s).buf b = s.buf b := rfl

/-- The orchestrator's registers when the builders start. -/
theorem prepared_orch (P : Params) (c : Command) (s : State) :
    (prepared P c s).orch =
      { isPair := isPairFlag (controlCode P c)
        cc     := controlCode P c
        pcl    := if takesParam c then clamp s.latches.param else s.orch.pcl
        pb     := if takesParam c then paramBlock (clamp s.latches.param) else #v[0, 0, 0] } := by
  cases c <;> rfl

theorem runCommand_eq (P : Params) (c : Command) (s : State) :
    runCommand P c s = completeEncode (dlbuild P (hfbuild P (prepared P c s))) := rfl

@[simp] theorem runCommand_orch (P : Params) (c : Command) (s : State) :
    (runCommand P c s).orch = (prepared P c s).orch := by
  simp [runCommand_eq]
@[simp] theorem runCommand_table (P : Params) (c : Command) (s : State) : (runCommand P c s).table = dtab P := by
  simp [runCommand_eq, hfbuild, hfWholePass]

theorem runCommand_status (P : Params) (c : Command) (s : State) :
    (runCommand P c s).status = { s.status with phase := .done, done := true } := by
  have h : (dlbuild P (hfbuild P (prepared P c s))).status = s.status := by simp
  rw [runCommand_eq, completeEncode, h]

/-- The whole HF frame after a command. -/
theorem runCommand_hfout (P : Params) (c : Command) (s : State) :
    (runCommand P c s).buf .hfout =
      Memory.ofBytes 0 (hfFrameHead ++ hfCoreFinal P (prepared P c s) ++ hfFrameTail) := by
  rw [runCommand_eq, completeEncode_buf, dlbuild_buf, hfbuild_buf]
  rfl

/-- The payload, the stream and the scratch buffer depend on the latches, CC and PB only. -/
theorem dlScratchSecond_congr {P : Params} {s t : State}
    (h : dlPayload s.latches s.orch.cc s.orch.pb = dlPayload t.latches t.orch.cc t.orch.pb) :
    dlScratchSecond P s = dlScratchSecond P t := by
  simp only [dlScratchSecond, dlScratchFirst, dlScratch, dlStreamBytes, h]

theorem hfCoreFinal_congr {P : Params} {s t : State} (h : hfCoreParam P s = hfCoreParam P t) :
    hfCoreFinal P s = hfCoreFinal P t := by
  simp only [hfCoreFinal, hfCoreChecked, h]

/-- The whole Deli16 frame after a command. -/
theorem runCommand_dlout (P : Params) (c : Command) (s : State) :
    (runCommand P c s).buf .dlout =
      Memory.ofBytes 0 (((dlScratchSecond P (prepared P c s)).drop 13).take 16 ++ dlFiller) := by
  rw [runCommand_eq, completeEncode_buf, dlbuild_buf, if_pos rfl,
    dlScratchSecond_congr (s := hfbuild P (prepared P c s)) (t := prepared P c s) (by simp)]

/-- A buffer filled with an HF frame holds its fixed bytes. -/
theorem hfFrame_whole {core : List Byte} {m : Memory} (hc : core.length = 16)
    (h : m = Memory.ofBytes 0 (hfFrameHead ++ core ++ hfFrameTail)) :
    m.holds 0 26 = true ∧ m.slice 0 4 = hfFrameHead ∧ m.slice 20 6 = hfFrameTail := by
  have l1 : hfFrameHead.length = 4 := rfl
  have l2 : hfFrameTail.length = 6 := rfl
  subst h
  refine ⟨Memory.holds_ofBytes _ _ _ (by simp [l1, l2, hc]), ?_, ?_⟩
  · rw [Memory.slice_ofBytes _ _ _ (by simp [l1, l2, hc]), List.drop_zero, List.append_assoc,
      List.take_append_of_le_length (by simp [l1]), ← l1, List.take_length]
  · rw [Memory.slice_ofBytes _ _ _ (by simp [l1, l2, hc]), List.drop_append_of_le_length (by simp [l1, hc]),
      List.drop_eq_nil_of_le (by simp [l1, hc]), List.nil_append]
    rfl

/-- A buffer filled with a Deli16 frame holds its filler. -/
theorem dlFrame_whole {payload : List Byte} {m : Memory} (hp : payload.length = 16)
    (h : m = Memory.ofBytes 0 (payload ++ dlFiller)) : m.holds 0 26 = true ∧ m.slice 16 10 = dlFiller := by
  have l3 : dlFiller.length = 10 := rfl
  subst h
  refine ⟨Memory.holds_ofBytes _ _ _ (by simp [l3, hp]), ?_⟩
  rw [Memory.slice_ofBytes _ _ _ (by simp [l3, hp]), List.drop_append_of_le_length (by simp [hp]),
    List.drop_eq_nil_of_le (by simp [hp]), List.nil_append]
  rfl

/-- Both frames are whole after a command. -/
theorem runCommand_framesWhole (P : Params) (c : Command) (s : State) : (runCommand P c s).framesWhole := by
  obtain ⟨h1, h2, h3⟩ := hfFrame_whole (length_hfCoreFinal _ _) (runCommand_hfout P c s)
  exact ⟨h1, h2, h3, dlFrame_whole (by simp) (runCommand_dlout P c s)⟩

end Sys2Proof.Machine
end

