-- ==== Sys2Proof/Laws/Canonical.lean ====
section
/-! SUPPORT. Every operation keeps the buffers in canonical form and inside their lengths. -/

namespace Sys2Proof.Machine

open Sys2Proof.Config

theorem memoryWf_iff (s : State) : s.memoryWf ↔ ∀ b, (s.buf b).wf (bufSize b) := by
  refine ⟨fun h b => ?_, fun h => ⟨h .hfcore, h .stream, h .pl, h .scratch, h .sub, h .blk, h .hfout, h .dlout⟩⟩
  obtain ⟨h1, h2, h3, h4, h5, h6, h7, h8⟩ := h
  cases b <;> assumption

/-- Operations that leave the buffers alone keep them canonical. -/
theorem memoryWf_of_mem {s t : State} (h : t.mem = s.mem) (hs : s.memoryWf) : t.memoryWf := by
  unfold State.memoryWf at *
  rw [h]
  exact hs

theorem setBuf_memoryWf {s : State} {b : Space} {m : Memory} (hs : s.memoryWf) (hm : m.wf (bufSize b)) :
    (s.setBuf b m).memoryWf := by
  rw [memoryWf_iff] at *
  intro c
  rw [State.buf_setBuf]
  split
  · next h => exact h ▸ hm
  · exact hs c

/-- Writing the positions of a range that are inside the buffer keeps it canonical. -/
theorem writeSpan_wf {b : Space} {m : Memory} {start length : Nat} {bs : List Byte} (hm : m.wf (bufSize b))
    (hb : bs.length = spanLen (bufSize b) start length) : (m.writeRange start bs).wf (bufSize b) := by
  by_cases h : start ≤ bufSize b
  · exact Memory.writeRange_wf hm (by rw [hb]; unfold spanLen; omega)
  · have h0 : bs.length = 0 := by rw [hb]; unfold spanLen; omega
    rw [List.length_eq_zero_iff.1 h0]
    exact hm

theorem acceptRequest_memoryWf {r : Request} {s : State} (hs : s.memoryWf) : (acceptRequest r s).memoryWf := by
  rw [memoryWf_iff] at *
  intro c
  rw [acceptRequest_buf]
  split
  · exact Memory.nil_wf _
  · exact hs c

theorem raiseUnknownCommand_memoryWf {s : State} (hs : s.memoryWf) : (raiseUnknownCommand s).memoryWf := by
  rw [memoryWf_iff] at *
  intro c
  rw [raiseUnknownCommand_buf]
  split
  · exact Memory.nil_wf _
  · exact hs c

theorem resetCore_memoryWf (s : State) : (resetCore s).memoryWf := by
  rw [memoryWf_iff]
  intro c
  cases c <;> exact Memory.nil_wf _

theorem blkencOf_memoryWf {P : Params} {v : Vector Byte 8} {s : State} (hs : s.memoryWf) :
    (blkencOf P v s).memoryWf := by
  rw [memoryWf_iff] at *
  intro c
  rw [blkencOf_buf]
  split
  · next h => subst h; exact Memory.writeRange_wf (hs _) (by simp [bufSize])
  · exact hs c

theorem dtabOn_memoryWf {P : Params} {s : State} (hs : s.memoryWf) : (dtabOn P s).memoryWf :=
  memoryWf_of_mem (s := blkencOf P (seedHigh P) (blkencOf P (seedLow P) s)) rfl
    (blkencOf_memoryWf (blkencOf_memoryWf hs))

theorem obfOn_memoryWf {P : Params} {b : Space} {start length : Nat} {key : Byte} {s : State} (hs : s.memoryWf) :
    (obfOn P b start length key s).memoryWf := by
  have h := (memoryWf_iff _).1 (dtabOn_memoryWf (P := P) hs)
  rw [memoryWf_iff]
  intro c
  rw [obfOn_buf]
  split
  · next hc => subst hc; exact writeSpan_wf (length := length) (h _) (by simp)
  · exact h c

theorem permOn_memoryWf {P : Params} {b : Space} {length : Nat} {key : Byte} {s : State} (hs : s.memoryWf) :
    (permOn P b length key s).memoryWf := by
  rw [memoryWf_iff] at *
  intro c
  rw [permOn_buf]
  split
  · next hc => subst hc; exact writeSpan_wf (length := length) (hs _) (by simp)
  · exact hs c

theorem hfbuild_memoryWf {P : Params} {s : State} (hs : s.memoryWf) : (hfbuild P s).memoryWf := by
  have h1 : (hfLoad s).memoryWf := setBuf_memoryWf hs (Memory.ofBytes_wf (by simp [bufSize]))
  have h2 : (hfParamRegion P (hfLoad s)).memoryWf := by
    rw [memoryWf_iff] at *
    intro c
    unfold hfParamRegion
    split
    · rw [State.buf_setBuf]
      split
      · next h => subst h; exact Memory.writeRange_wf (h1 .hfcore) (by simp [bufSize, pairMarker])
      · exact h1 c
    · exact (memoryWf_iff _).1 (obfOn_memoryWf ((memoryWf_iff _).2 h1)) c
  have h3 : (hfCheck (hfParamRegion P (hfLoad s))).memoryWf := by
    rw [memoryWf_iff] at *
    intro c
    rw [hfCheck_hfParamRegion_buf]
    split
    · next h => subst h; exact Memory.ofBytes_wf (by simp [bufSize])
    · exact h2 c
  exact setBuf_memoryWf (obfOn_memoryWf h3)
    (Memory.ofBytes_wf (by simp [bufSize, hfFrameHead, hfFrameTail]))

theorem dlbuild_memoryWf {P : Params} {s : State} (hs : s.memoryWf) : (dlbuild P s).memoryWf := by
  rw [memoryWf_iff] at *
  intro c
  rw [dlbuild_buf]
  split_ifs
  · next h => subst h; exact Memory.ofBytes_wf (by simp [bufSize, dlFiller])
  · next h => subst h; exact Memory.ofBytes_wf (by simp [bufSize])
  · next h => subst h; exact Memory.ofBytes_wf (by simp [bufSize])
  · next h => subst h; exact Memory.ofBytes_wf (by simp [bufSize])
  · next h => subst h; exact Memory.ofBytes_wf (by simp [bufSize])
  · exact hs c

theorem runCommand_memoryWf {P : Params} {c : Command} {s : State} (hs : s.memoryWf) :
    (runCommand P c s).memoryWf := by
  have h : (prepared P c s).memoryWf := memoryWf_of_mem (by simp [prepared]) hs
  rw [runCommand_eq]
  exact memoryWf_of_mem (completeEncode_mem _) (dlbuild_memoryWf (hfbuild_memoryWf h))

end Sys2Proof.Machine
end

