-- ==== Sys2Proof/Laws/PerInstr.lean ====
section
/-! SUPPORT. One lemma per operation about the operation as syntax: what the encoder presents for it carries
the fixed bits of its row of spec/opcode_table.json. -/

namespace Sys2Proof.Laws.FixedBits

open Sys2Proof

/-- The `mask` and `match` of an operation's row of opcode_table.json. -/
def row : Instr → Nat × Nat
  | .pair _ => (0x7, 0x0)
  | .off _ => (0x7, 0x1)
  | .on _ => (0x7, 0x2)
  | .bright _ => (0x7, 0x3)
  | .cct _ => (0x7, 0x4)
  | .crc16f _ _ _ _ => (0xF, 0x1)
  | .crc16r => (0xF, 0x2)
  | .rev8 _ => (0xF, 0x3)
  | .blkenc => (0xF, 0x4)
  | .dtab => (0xF, 0x5)
  | .obf _ _ _ _ => (0xF, 0x6)
  | .perm _ _ _ => (0xF, 0x7)
  | .hfbuild => (0xF, 0x8)
  | .dlbuild => (0xF, 0x9)
  | .encode _ => (0xF, 0xA)

/-- The bits of what is presented, numbered as the table numbers them. -/
def bits : Presented → Nat
  | .req w => w.toNat
  | .op sel _ => sel.toNat

/-- The fixed bits of the row stand where the row has them. -/
def Statement (i : Instr) : Prop := bits (encode i) &&& (row i).1 = (row i).2

/-- The low three bits of a request word are its command code. -/
theorem word_low (r : Request) : r.word.toNat &&& 7 = r.cmd.toNat := by
  rw [Request.word, BitVec.toNat_cast, BitVec.toNat_append, show (7 : Nat) = 2 ^ 3 - 1 from rfl,
    Nat.and_two_pow_sub_one_eq_mod, ← Nat.shiftLeft_add_eq_or_of_lt r.cmd.isLt, Nat.shiftLeft_eq]
  have := r.cmd.isLt
  omega

theorem pair (o : ReqOperands) : Statement (.pair o) := word_low ⟨Command.code .pair, o⟩
theorem off (o : ReqOperands) : Statement (.off o) := word_low ⟨Command.code .off, o⟩
theorem on (o : ReqOperands) : Statement (.on o) := word_low ⟨Command.code .on, o⟩
theorem bright (o : ReqOperands) : Statement (.bright o) := word_low ⟨Command.code .bright, o⟩
theorem cct (o : ReqOperands) : Statement (.cct o) := word_low ⟨Command.code .cct, o⟩
theorem crc16f (b : Space) (start length : Nat) (initial : Half) : Statement (.crc16f b start length initial) :=
  (rfl : (1#4).toNat &&& 0xF = 0x1)
theorem crc16r : Statement .crc16r := rfl
theorem rev8 (b : Byte) : Statement (.rev8 b) :=
  (rfl : (3#4).toNat &&& 0xF = 0x3)
theorem blkenc : Statement .blkenc := rfl
theorem dtab : Statement .dtab := rfl
theorem obf (b : Space) (start length : Nat) (key : Byte) : Statement (.obf b start length key) :=
  (rfl : (6#4).toNat &&& 0xF = 0x6)
theorem perm (b : Space) (length : Nat) (key : Byte) : Statement (.perm b length key) :=
  (rfl : (7#4).toNat &&& 0xF = 0x7)
theorem hfbuild : Statement .hfbuild := rfl
theorem dlbuild : Statement .dlbuild := rfl
theorem encode (r : Request) : Statement (.encode r) :=
  (rfl : (10#4).toNat &&& 0xF = 0xA)

end Sys2Proof.Laws.FixedBits
end

