-- ==== Sys2Proof/Tests/Slice0.lean ====
section
/-! SUPPORT. Tests of the model against the vectors and encodings of the spec, and for every statement with
hypotheses a concrete state and operands that meet them. Expected results are those of spec/95_test_vectors.md
(parameter set VP1, whose values are the vectors' stand-ins and not the device's) and spec/opcode_table.json. -/

namespace Sys2Proof.Tests

open Sys2Proof.Machine Sys2Proof.Config Sys2Proof.Claims

/-- The vector parameter set VP1, with candidate G3 for the permutation engine. -/
def vp1 : Params where
  key := #v[0x30, 0x31, 0x32, 0x33, 0x34, 0x35, 0x36, 0x37, 0x38, 0x39, 0x61, 0x62, 0x63, 0x64, 0x65, 0x66]
  seed := #v[0, 1, 2, 3, 4, 5, 6, 7, 8, 9, 10, 11, 12, 13, 14, 15]
  sumInit := 0xC6EF3720
  ccOffLow := 1
  ccOnLow := 2
  ccBrightLow := 3
  ccCctLow := 4
  pkInitHigh k := 0#1 ++ k.reverse
  pkStep pk :=
    let c := (pk >>> 6) &&& 1#8
    (((pk <<< 1) &&& 0x7E) ||| c) ^^^ (c <<< 4)
  bitSeq := Equiv.refl _

/-- VP1 with the zero key of V-BLK-1. -/
def zeroKey : Params := { vp1 with key := Vector.replicate 16 0 }

/-- A state of zeros, with no event pending and no buffer written. -/
def blank : State where
  events := []
  latches := ⟨0, 0, #v[0, 0, 0, 0, 0], 0, 0⟩
  status := ⟨.idle, false, false, .none⟩
  orch := ⟨false, 0, 0, #v[0, 0, 0]⟩
  cipher := ⟨0, 0, 0, 0, 0, 0, 0⟩
  table := Vector.replicate 16 0
  crc := ⟨0, 0⟩
  subst := ⟨0, 0, 0⟩
  perm := ⟨0, 0⟩
  temp := 0
  loops := ⟨0, 0, 0⟩
  rev := 0
  mem := Buffers.unwritten
  occasion := 0

/-- `blank` with an event pending. -/
def given (e : Event) : State := { blank with events := [e] }

/-- `blank` with the operand buffers full. -/
def filled : State :=
  { blank with
    mem :=
      { Buffers.unwritten with
        hfcore := Memory.ofBytes 0 [16, 1, 2, 3, 4, 5, 6, 7, 8, 9, 10, 11, 12, 13, 14, 15]
        stream := Memory.ofBytes 0 [0xCC, 0x55, 0xAA, 0x08, 0x80, 0x40, 0x80, 0xC1, 0xC4, 0x88, 0x80]
        scratch := Memory.ofBytes 0 (List.replicate 29 7)
        sub := Memory.ofBytes 0 [1, 2, 3, 4, 5]
        blk := Memory.ofBytes 0 [0, 0, 0, 0, 0, 0, 0, 0] } }

/-- `blank` after a request that was refused as an unknown command. -/
def erred : State := { blank with status := ⟨.err, false, true, .unknownCommand⟩ }

/-- A state with two whole frames, as the invariant has it. -/
def framed : State :=
  { blank with
    status := ⟨.done, true, false, .none⟩
    table := dtab params
    mem :=
      { Buffers.unwritten with
        hfout := Memory.ofBytes 0 (hfFrameHead ++ List.replicate 16 0 ++ hfFrameTail)
        dlout := Memory.ofBytes 0 (List.replicate 16 0 ++ dlFiller) } }

/-- The identity of the vectors. -/
def ident : Vector Byte 5 := #v[0x11, 0x22, 0x33, 0x44, 0x55]

/-- The bytes of a buffer, in order. -/
def bytesOf (m : Memory) : List Byte := m.map (·.2)

/-! ### Well-formedness: an ill-formed operation for each check, which the check and the decoder refuse -/

theorem test_wf_crc16f_refuses_other_buffers :
    ([.pl, .scratch, .sub, .blk, .hfout, .dlout].all fun b => !(Instr.crc16f b 0 1 0).wf) = true := by decide
theorem test_wf_obf_refuses_other_buffers :
    ([.stream, .pl, .scratch, .sub, .blk, .hfout, .dlout].all fun b => !(Instr.obf b 0 1 0).wf) = true := by decide
theorem test_wf_perm_refuses_other_buffers :
    ([.hfcore, .stream, .pl, .blk, .hfout, .dlout].all fun b => !(Instr.perm b 1 0).wf) = true := by decide
theorem test_decode_refuses_illformed :
    decode (encode (.crc16f .pl 0 1 0)) = .error (.bufferNotReached .pl) ∧
    decode (encode (.obf .scratch 0 1 0)) = .error (.bufferNotReached .scratch) ∧
    decode (encode (.perm .hfcore 1 0)) = .error (.bufferNotReached .hfcore) := by decide
theorem test_wf_admits_reached_buffers :
    (Instr.crc16f .stream 0 1 0).wf = true ∧ (Instr.obf .hfcore 0 1 0).wf = true ∧
    (Instr.perm .scratch 1 0).wf = true := by decide

/-! ### Decoding: words written out from 30_encoding.md R71, R72 and R75 -/

-- REQ fields, high to low: ident[4], ident[3], ident[2], ident[1], ident[0], rnd, counter, param, cmd.
theorem test_decode_pair : decodeTableWord 88 0x2AA2199108AD000000000 = some (.pair ⟨0, 0, 0x5A, ident⟩) := by decide
theorem test_decode_off :
    decodeTableWord 88 0x2AA21991089E7FFF81849 = some (.off ⟨777, 0xFFFF, 0x3C, ident⟩) := by decide
theorem test_decode_on : decodeTableWord 88 0x2AA219910880000080002 = some (.on ⟨0, 1, 0, ident⟩) := by decide
theorem test_decode_bright : decodeTableWord 88 0x2AA2199108D3800100FA3 = some (.bright ⟨500, 2, 0xA7, ident⟩) := by
  decide
theorem test_decode_cct :
    decodeTableWord 88 0x2AA2199108FF891A01F44 = some (.cct ⟨1000, 0x1234, 0xFF, ident⟩) := by decide
theorem test_decode_request_bits :
    decodeTableWord 88 (0b01010101 <<< 75 + 0b01000100 <<< 67 + 0b00110011 <<< 59 + 0b00100010 <<< 51 +
      0b00010001 <<< 43 + 0b00000000 <<< 35 + 0b0000000000000001 <<< 19 + 0b0000000000000000 <<< 3 + 0b010) =
      some (.on ⟨0, 1, 0, ident⟩) := by decide
theorem test_decode_unknown_commands :
    decodeTableWord 88 0x2AA219910880000380005 = none ∧ decodeTableWord 88 6 = none ∧ decodeTableWord 88 7 = none := by
  decide
theorem test_decode_selects :
    decodeTableWord 8 0b0001 = some (.crc16f .hfcore 0 0 0) ∧ decodeTableWord 8 0b0010 = some .crc16r ∧
    decodeTableWord 8 0b0011 = some (.rev8 0) ∧ decodeTableWord 8 0b0100 = some .blkenc ∧
    decodeTableWord 8 0b0101 = some .dtab ∧ decodeTableWord 8 0b0110 = some (.obf .hfcore 0 0 0) ∧
    decodeTableWord 8 0b0111 = some (.perm .sub 0 0) ∧ decodeTableWord 8 0b1000 = some .hfbuild ∧
    decodeTableWord 8 0b1001 = some .dlbuild ∧ decodeTableWord 8 0b1010 = some (.encode (Request.ofWord 0)) := by
  decide
theorem test_decode_unused_selects :
    ([0b0000, 0b1011, 0b1100, 0b1101, 0b1110, 0b1111].all fun w => (decodeTableWord 8 w).isNone) = true := by decide
theorem test_encode_word : (Request.mk 2 ⟨0, 1, 0, ident⟩).word = 0x2AA219910880000080002#83 := by decide

/-! ### The first step after reset runs the row's instruction -/

/-- Does an outcome go on? -/
def goesOn : Host.Outcome State Fault Refusal → Bool
  | .next _ => true
  | .fault _ => false
  | .refused _ => false

theorem test_step_runs_request_rows :
    ([0, 1, 2, 3, 4].all fun w => goesOn (step (State.reset.withFetchWord 88 w))) = true := by decide
theorem test_step_runs_select_rows :
    ([1, 2, 3, 4, 5, 6, 7, 8, 9, 10].all fun w => goesOn (step (State.reset.withFetchWord 8 w))) = true := by decide
theorem test_reset_with_nothing_presented : step State.reset = .next State.reset := rfl

/-! ### Unit operations -/

-- V-CRC-4, V-CRC-11c, V-CRC-11d
theorem test_crc16f_one_byte : crc16f [0x01] 0 1 0 = 0x1021 := by decide +kernel
theorem test_crc16f_cut_at_end :
    crc16f [1, 2, 3, 4, 5, 6, 7, 8] 6 5 0 = 0x189F ∧ crc16f [1, 2, 3, 4, 5, 6, 7, 8] 8 4 0x1234 = 0x1234 := by
  decide +kernel
-- V-CRC-16, V-CRC-13e
theorem test_crc16r_stream : (crc16rOn filled).crc = { crca := 0xF8EE, crcf := 0x88E0 } := by decide +kernel
theorem test_reflout : reflout 0x1234 = 0xD3B7 := by decide +kernel
-- V-CRC-12: X-25's check value over "123456789", by the statements' own reflected CRC
theorem test_x25_check_value : x25 [0x31, 0x32, 0x33, 0x34, 0x35, 0x36, 0x37, 0x38, 0x39] = 0x906E := by decide +kernel
-- V-REV-2, V-REV-3
theorem test_rev8 : rev8 0x71 = 0x8E ∧ rev8 0xCC = 0x33 ∧ rev8 0x01 = 0x80 := by decide +kernel
theorem test_rev8_palindrome : rev8 0xA5 = 0xA5 := by decide +kernel
-- V-BLK-1, V-BLK-5
theorem test_blkenc_zero_key : blkenc zeroKey #v[0, 0, 0, 0, 0, 0, 0, 0] =
    #v[0x6D, 0xFF, 0x23, 0x14, 0x3A, 0xEF, 0x16, 0x92] := by decide +kernel
theorem test_blkenc_to_zero : blkenc zeroKey #v[0x0A, 0x3A, 0xEA, 0x41, 0x40, 0xA9, 0xBA, 0x94] =
    #v[0, 0, 0, 0, 0, 0, 0, 0] := by decide +kernel
-- V-DTAB-1
theorem test_dtab : (dtabOn vp1 blank).table = #v[0x44, 0xF8, 0x7C, 0x11, 0xD0, 0x4A, 0xFD, 0xAE, 0xE6, 0xDE, 0x38,
    0xF8, 0x23, 0xCE, 0x0E, 0x96] := by decide +kernel
-- V-OBF-1, V-OBF-4
theorem test_obf_own_selector :
    obf (dtab vp1) [0xFF, 0x00, 0x01, 0x11, 0x20, 0x00, 0x00, 0x82, 0x03, 0xFF, 0x01, 0, 0, 0, 0, 0] 9 5 0xAA =
      some [0xFF, 0x00, 0x01, 0x11, 0x20, 0x00, 0x00, 0x82, 0x03, 0x3F, 0xF1, 0x1B, 0xC6, 0x06, 0, 0] := by
  decide +kernel
theorem test_obf_past_end :
    obf (dtab vp1) [0x10, 0x20, 0x30, 0x40] 2 5 0 = some [0x10, 0x20, 0x24, 0x88] ∧
    obf (dtab vp1) [0x10, 0x20, 0x30, 0x40] 3 1 0 = none := by decide +kernel
-- V-PERM-6
theorem test_perm_past_end : bytesOf ((permOn vp1 .sub 9 0x25 filled).mem.sub.take 5) = [0x8C, 0xD0, 0x54, 0xA5, 0x38] := by
  decide +kernel
theorem test_perm_first_bytes : perm vp1 [1, 2, 3, 4, 5] 3 0x25 = [0x8C, 0xD0, 0x54, 4, 5] := by decide +kernel
-- V-HF-1, V-HF-2
theorem test_hfbuild_on :
    bytesOf (hfbuild vp1 { blank with
      latches := ⟨2, 0, ident, 1, 0⟩, orch := ⟨false, 0x82, 0, #v[0, 0, 0]⟩ }).mem.hfcore =
      [0xB8, 0xF2, 0x2B, 0x33, 0x9C, 0x3C, 0x67, 0x94, 0x55, 0x11, 0xF9, 0x57, 0xFE, 0x53, 0xD8, 0x78] := by
  decide +kernel
theorem test_hfbuild_pair :
    bytesOf (hfbuild vp1 { blank with
      latches := ⟨0, 0, ident, 0, 0x5A⟩, orch := ⟨true, 0xB4, 0, #v[0, 0, 0]⟩ }).mem.hfout =
      [0x48, 0x46, 0x4B, 0x4A, 0x66, 0x7A, 0x7C, 0x65, 0xEE, 0x8E, 0xB9, 0xF0, 0xA3, 0xFF, 0xDA, 0x34, 0x6C, 0xD4,
       0x8C, 0xD8, 0x10, 0x11, 0x12, 0x13, 0x14, 0x15] := by decide +kernel
-- V-DL-1, V-DL-3
theorem test_dlbuild_payload :
    bytesOf (dlbuild vp1 { blank with
      latches := ⟨2, 0, ident, 1, 0⟩, orch := ⟨false, 0x82, 0, #v[0, 0, 0]⟩ }).mem.pl =
      [0x10, 0x01, 0x02, 0x01, 0x83, 0x23, 0x11, 0x01] := by decide +kernel
theorem test_dlbuild_bright :
    bytesOf (dlbuild vp1 { blank with
      latches := ⟨3, 500, ident, 2, 0xA7⟩, orch := ⟨false, 0x83, 500, #v[0, 0x01, 0xF4]⟩ }).mem.dlout =
      [0xF9, 0x08, 0x49, 0xB2, 0xCE, 0x2C, 0x60, 0xC9, 0x9B, 0x63, 0xCB, 0xDE, 0x08, 0x3B, 0x36, 0xE9, 0x10, 0x11,
       0x12, 0x13, 0x14, 0x15, 0x16, 0x17, 0x18, 0x19] := by decide +kernel

/-! ### Commands: the frames of 95_test_vectors.md programs P1 to P3 -/

/-- Bytes 4 to 19 of the HF frame of a request under VP1. -/
def hfMiddle (r : Request) : List Byte := ((bytesOf (encodeOn vp1 r blank).mem.hfout).drop 4).take 16

theorem test_pair_frame : hfMiddle ⟨0, ⟨321, 0, 0x5A, ident⟩⟩ =
    [0x66, 0x7A, 0x7C, 0x65, 0xEE, 0x8E, 0xB9, 0xF0, 0xA3, 0xFF, 0xDA, 0x34, 0x6C, 0xD4, 0x8C, 0xD8] := by decide +kernel
theorem test_off_frame : hfMiddle ⟨1, ⟨777, 0xFFFF, 0x3C, ident⟩⟩ =
    [0x66, 0x58, 0x4F, 0x65, 0xEE, 0x8E, 0xB9, 0xE5, 0xA3, 0xFB, 0x69, 0xE9, 0x00, 0xD5, 0x32, 0x9F] := by decide +kernel
theorem test_on_frame : hfMiddle ⟨2, ⟨9999, 1, 0, ident⟩⟩ =
    [0xB8, 0xF2, 0x2B, 0x33, 0x9C, 0x3C, 0x67, 0x94, 0x55, 0x11, 0xF9, 0x57, 0xFE, 0x53, 0xD8, 0x78] := by decide +kernel
theorem test_on_deli_frame : bytesOf (encodeOn vp1 ⟨2, ⟨0, 1, 0, ident⟩⟩ blank).mem.dlout =
    [0xF9, 0x08, 0x49, 0xB2, 0xCE, 0x2C, 0x97, 0x3E, 0x6C, 0x95, 0x3D, 0x29, 0xFC, 0x38, 0xD5, 0x0B, 0x10, 0x11, 0x12,
     0x13, 0x14, 0x15, 0x16, 0x17, 0x18, 0x19] := by decide +kernel
theorem test_bright_frame : hfMiddle ⟨3, ⟨500, 2, 0xA7, ident⟩⟩ =
    [0x2E, 0x17, 0xB2, 0xBD, 0x26, 0xC6, 0xF1, 0x1B, 0xDB, 0x0B, 0xFC, 0x49, 0x01, 0x69, 0xB8, 0xB5] := by decide +kernel
theorem test_bright_clamped : hfMiddle ⟨3, ⟨5000, 3, 0, ident⟩⟩ =
    [0xB8, 0xF2, 0x2D, 0x33, 0x9C, 0x3C, 0x67, 0x95, 0x55, 0xF8, 0x92, 0x68, 0x20, 0x54, 0xE4, 0xAC] := by decide +kernel
theorem test_cct_frame : hfMiddle ⟨4, ⟨1000, 0x1234, 0xFF, ident⟩⟩ =
    [0xB8, 0x69, 0x56, 0x33, 0x9C, 0x3C, 0x67, 0x8E, 0x55, 0x63, 0x1A, 0x8D, 0xBB, 0x21, 0x98, 0xBD] := by decide +kernel
-- Program P3, request 1
theorem test_encode_unknown : (encodeOn vp1 ⟨5, ⟨0, 7, 0, ident⟩⟩ blank).status = ⟨.err, false, true, .unknownCommand⟩ ∧
    (encodeOn vp1 ⟨5, ⟨0, 7, 0, ident⟩⟩ blank).mem = Buffers.unwritten := by decide
-- Program P2, requests 1 and 3: PB
theorem test_encode_parameter_block : (encodeOn vp1 ⟨3, ⟨0, 3, 0, ident⟩⟩ blank).orch.pb = #v[0, 0, 1] ∧
    (encodeOn vp1 ⟨3, ⟨5000, 3, 0, ident⟩⟩ blank).orch.pb = #v[0, 3, 0xE8] := by decide +kernel

/-! ### Witnesses: concrete states and operands that meet the hypotheses of each statement -/

theorem witness_DecodeEncodeRoundTrip : (Instr.obf .hfcore 9 5 0xAA).wf = true ∧ (Instr.crc16f .stream 0 11 0xFFFF).wf = true ∧
    (Instr.perm .sub 13 63).wf = true ∧ (Instr.pair ⟨0, 0, 0, ident⟩).wf = true := by decide
theorem witness_EncodeDecodeRequest :
    decode (.req 0x2AA219910880000080002) = .ok (.on ⟨0, 1, 0, ident⟩) := by decide
theorem witness_DecodedIsWellFormed :
    decode (encode (.perm .scratch 29 37)) = .ok (.perm .scratch 29 37) := by decide
/-- Operand values that name a buffer. -/
def atBuffer (b : Space) : OpWires := { OpWires.zero 1 with space := b }

theorem witness_OtherBuffersRejected : (Instr.perm .blk 8 0).wf = false ∧
    ((atBuffer .pl).space ≠ .hfcore ∧ (atBuffer .pl).space ≠ .stream ∧ (atBuffer .pl).space ≠ .sub ∧
      (atBuffer .pl).space ≠ .scratch) ∧
    (given (.op 0b0001 (atBuffer .pl))).events = [.op 0b0001 (atBuffer .pl)] ∧
    (given (.op 0b0110 (atBuffer .stream))).events = [.op 0b0110 (atBuffer .stream)] ∧
    (given (.op 0b0111 (atBuffer .hfcore))).events = [.op 0b0111 (atBuffer .hfcore)] := by decide
theorem witness_OnlyUnknownCodesRejected :
    ((4#83).extractLsb' 0 3).toNat ≤ 4 ∧ 5 ≤ ((5#83).extractLsb' 0 3).toNat ∧ 5 ≤ ((7#83).extractLsb' 0 3).toNat ∧
    (0b0000#4).toNat = 0 ∧ 11 ≤ (0b1011#4).toNat ∧ 11 ≤ (0b1111#4).toNat ∧ 1 ≤ (0b0001#4).toNat ∧
    (0b1010#4).toNat ≤ 10 ∧ (given (.op 0b1011 (atBuffer .hfout))).events = [.op 0b1011 (atBuffer .hfout)] := by
  decide
theorem witness_StepRunsDecodedInstruction :
    (given (.op 3 (OpWires.zero 3))).events = [.op 3 (OpWires.zero 3)] ∧
    (Event.op 3 (OpWires.zero 3)).presented = some (.op 3 (OpWires.zero 3)) ∧
    decode (.op 3 (OpWires.zero 3)) = .ok (.rev8 0) := by decide
theorem witness_EveryRequestEnds :
    (given (.ports false true ⟨4, ⟨0, 0, 0, ident⟩⟩)).events = [.ports false true ⟨4, ⟨0, 0, 0, ident⟩⟩] ∧
    (4#3).toNat ≤ 4 ∧ 5 ≤ (5#3).toNat := by decide
theorem witness_StepConsumesOneEvent : step (given (.ports false false ⟨0, ⟨0, 0, 0, ident⟩⟩)) = .next blank := rfl
theorem witness_NothingPresentedChangesNothing : blank.events = [] ∧
    (given (.ports false false ⟨0, ⟨0, 0, 0, ident⟩⟩)).events = [.ports false false ⟨0, ⟨0, 0, 0, ident⟩⟩] := by decide
theorem witness_ResetClearsStatusAndFrames :
    ({ framed with events := [.ports true true ⟨2, ⟨0, 0, 0, ident⟩⟩] } : State).events =
      .ports true true ⟨2, ⟨0, 0, 0, ident⟩⟩ :: [] := rfl
theorem witness_UnknownCommandTaken : 5 ≤ (5#3).toNat ∧ 5 ≤ (7#3).toNat ∧
    (given (.ports false true ⟨7, ⟨5000, 0, 0, ident⟩⟩)).events = [.ports false true ⟨7, ⟨5000, 0, 0, ident⟩⟩] := by decide
theorem witness_NextAcceptanceEndsError : erred.status = ⟨.err, false, true, .unknownCommand⟩ ∧ 5 ≤ (5#3).toNat := by
  decide
theorem witness_FramesUnreadableUnlessDone : (given (.read .dl)).status.done = false ∧
    (given (.read .dl)).events = [.read .dl] ∧ (given (.read .hf)).events = [.read .hf] := by decide
theorem framed_holds_both_frames : framed.framesWhole := by
  obtain ⟨h1, h2, h3⟩ := hfFrame_whole (core := List.replicate 16 0) (by simp) (rfl : framed.mem.hfout = _)
  exact ⟨h1, h2, h3, dlFrame_whole (payload := List.replicate 16 0) (by simp) (rfl : framed.mem.dlout = _)⟩
theorem witness_FramesReadableWhenDone :
    framed.Inv ∧ framed.status.done = true ∧ ({ framed with events := [.read .hf] } : State).Inv := by
  have h : framed.Inv := ⟨by decide, by decide, fun _ => ⟨framed_holds_both_frames, by decide, rfl⟩⟩
  exact ⟨h, rfl, h⟩
theorem witness_StatusReadInAnyPhase :
    State.reset.status.phase = .idle ∧ framed.status.phase = .done ∧ erred.status.phase = .err ∧
    State.reset.status.cause = .none ∧ erred.status.cause = .unknownCommand ∧
    (given (.read .cause)).events = [.read .cause] ∧ (given (.read .cause)).status.done = false ∧
    OutPort.cause ≠ .hf ∧ OutPort.cause ≠ .dl := by decide
theorem witness_Crc16fResult : (Instr.crc16f .stream 9 5 0).wf = true ∧
    ([0xCC, 0x55, 0xAA, 0x08, 0x80, 0x40, 0x80, 0xC1, 0xC4, 0x88, 0x80] : List Byte).length = bufSize .stream ∧
    (∀ i, 9 ≤ i → i < 9 + 5 → i < bufSize .stream → (filled.buf .stream).read i =
      [0xCC, 0x55, 0xAA, 0x08, 0x80, 0x40, 0x80, 0xC1, 0xC4, 0x88, 0x80][i]?) := by
  refine ⟨rfl, rfl, fun i h1 _ h3 => ?_⟩
  have h3 : i < 11 := h3
  interval_cases i <;> rfl
theorem witness_UnwrittenOperandFaults : (blank.buf .hfcore).read 15 = none ∧ 15 < bufSize .hfcore ∧
    (blank.buf .stream).read 10 = none ∧ (blank.buf .blk).read 7 = none ∧ (blank.buf .sub).read 12 = none ∧
    12 < bufSize .sub ∧ 14 + 1 < bufSize .hfcore ∧ (14 ≤ 15 ∧ 15 < 14 + 9) := by decide
theorem witness_CrcCutsAtEnd : [(1 : Byte)].length ≤ 1 := by decide
theorem witness_CrcStepAndReflection : 2 ^ 15 ≤ (0x8000 : Half).toNat ∧ ¬ 2 ^ 15 ≤ (0x7FFF : Half).toNat ∧
    ([1, 2, 3] : List Byte)[0 + 2]? = some 3 := by decide
theorem witness_RefloutReversesAndInverts : 0 < 16 ∧ 15 < 16 := by decide
theorem witness_Crc16rResult :
    ([0xCC, 0x55, 0xAA, 0x08, 0x80, 0x40, 0x80, 0xC1, 0xC4, 0x88, 0x80] : List Byte).length = 11 ∧
    ∀ i, i < 11 → (filled.buf .stream).read i =
      [0xCC, 0x55, 0xAA, 0x08, 0x80, 0x40, 0x80, 0xC1, 0xC4, 0x88, 0x80][i]? := by
  refine ⟨rfl, fun i h => ?_⟩
  interval_cases i <;> rfl
theorem witness_BlkencResult :
    ∀ i : Fin 8, (filled.buf .blk).read i = some (#v[0, 0, 0, 0, 0, 0, 0, 0] : Vector Byte 8)[i] := by decide
theorem witness_BlkencInjective : blkenc zeroKey #v[0, 0, 0, 0, 0, 0, 0, 0] = blkenc zeroKey #v[0, 0, 0, 0, 0, 0, 0, 0] := rfl
theorem witness_ObfResult : (Instr.obf .hfcore 14 5 0).wf = true ∧ 14 + 1 < bufSize .hfcore ∧
    (∀ i, (14 ≤ i ∧ i < 14 + 5) ∨ i = 14 + 1 → i < bufSize .hfcore → ((filled.buf .hfcore).read i).isSome = true) := by
  refine ⟨rfl, by decide, fun i _ h => ?_⟩
  have h : i < 16 := h
  interval_cases i <;> rfl
theorem witness_ObfSelectorOutsideRefused : bufSize .hfcore ≤ 15 + 1 := by decide
theorem witness_SelectorByNibbleXor : (0x5A : Byte).extractLsb' 4 4 ^^^ (0x5A : Byte).extractLsb' 0 4 =
    (0xA5 : Byte).extractLsb' 4 4 ^^^ (0xA5 : Byte).extractLsb' 0 4 := by decide
theorem witness_ObfPositions : ([5, 6] : List Byte).length ≤ 1 + 1 ∧ ([5, 6] : List Byte)[0 + 1]? = some 6 := by decide
theorem witness_ObfLoopInjective : ([5, 6] : List Byte).length = ([5, 6] : List Byte).length ∧
    obfLoop (Vector.replicate 16 0) 0 0 0 1 [5, 6] = obfLoop (Vector.replicate 16 0) 0 0 0 1 [5, 6] := ⟨rfl, rfl⟩
theorem witness_PermResult : (Instr.perm .scratch 30 37).wf = true ∧
    (∀ i, i < 30 → i < bufSize .scratch → ((filled.buf .scratch).read i).isSome = true) := by
  refine ⟨rfl, fun i _ h => ?_⟩
  have h : i < 29 := h
  interval_cases i <;> rfl
theorem witness_PermPassesCommute : (List.replicate 29 (7 : Byte)).length = 29 := by decide
theorem witness_PairMarkerReplacesFirstPass :
    ({ blank with orch := ⟨true, 0xB4, 0, #v[0, 0, 0]⟩ } : State).orch.isPair = true := rfl
theorem witness_HfCrcFieldRecomputes : ([16, 1, 2, 3, 4, 5, 6, 7, 8, 9, 10, 11, 12] : List Byte).length = 13 ∧
    ∀ i, i < 13 → (filled.buf .hfcore).read i = [16, 1, 2, 3, 4, 5, 6, 7, 8, 9, 10, 11, 12][i]? := by
  refine ⟨rfl, fun i h => ?_⟩
  interval_cases i <;> rfl
theorem witness_DlFirstSixBytesConstant : exec .dlbuild blank = .next (dlbuild params blank) ∧
    exec .dlbuild filled = .next (dlbuild params filled) := ⟨rfl, rfl⟩
theorem witness_ParameterClampAndBlock :
    (∃ i o, (i = Instr.bright o ∨ i = .cct o) ∧ o.param = 1001) ∧ (∃ i o, i = Instr.pair o ∨ i = .off o ∨ i = .on o) ∧
    (clamp 0).toNat = 1 ∧ (clamp 1).toNat = 1 ∧
    (clamp 1000).toNat = 1000 ∧ (clamp 1001).toNat = 1000 ∧ (clamp 0xFFFF).toNat = 1000 :=
  ⟨⟨_, ⟨1001, 0, 0, ident⟩, Or.inr rfl, rfl⟩, ⟨_, ⟨0, 0, 0, ident⟩, Or.inl rfl⟩, by decide⟩
theorem witness_ParameterIgnored : takesParam .off = false ∧
    ∃ t t', exec (Command.instr .off ⟨777, 1, 0, ident⟩) blank = .next t ∧
      exec (Command.instr .off { (⟨777, 1, 0, ident⟩ : ReqOperands) with param := 0 }) blank = .next t' :=
  ⟨rfl, _, _, exec_instr .., exec_instr ..⟩
theorem witness_EncodeDeterministic :
    exec (.encode ⟨5, ⟨0, 7, 0, ident⟩⟩) blank =
      .next (raiseUnknownCommand (acceptRequest ⟨5, ⟨0, 7, 0, ident⟩⟩ blank)) ∧
    exec (.encode ⟨2, ⟨0, 7, 0, ident⟩⟩) filled =
      .next (runCommand params .on (acceptRequest ⟨2, ⟨0, 7, 0, ident⟩⟩ filled)) :=
  ⟨exec_encode_none rfl _, exec_encode_some rfl _⟩
theorem witness_HfFrameDependence :
    (∃ t t', exec (Command.instr .bright ⟨1000, 0x0134, 0, #v[0x11, 0x2F, 0, 0, 0]⟩) blank = .next t ∧
      exec (Command.instr .bright ⟨5000, 0x1234, 0, #v[0x11, 0x20, 1, 2, 3]⟩) filled = .next t') ∧
    blockOf .bright 1000 = blockOf .bright 5000 ∧ low8 0x0134 = low8 0x1234 ∧
    (0x2F : Byte).extractLsb' 4 4 = (0x20 : Byte).extractLsb' 4 4 :=
  ⟨⟨_, _, exec_instr .., exec_instr ..⟩, by decide, by decide, by decide⟩
theorem witness_DlFrameDependence :
    (∃ t t', exec (Command.instr .cct ⟨0, 0x0134, 1, #v[0x11, 0x22, 0, 0, 0]⟩) blank = .next t ∧
      exec (Command.instr .cct ⟨1, 0x1234, 2, #v[0x11, 0x22, 1, 2, 3]⟩) filled = .next t') ∧
    blockOf .cct 0 = blockOf .cct 1 ∧ low8 0x0134 = low8 0x1234 :=
  ⟨⟨_, _, exec_instr .., exec_instr ..⟩, by decide, by decide⟩
theorem witness_StepKeepsInvariant :
    ({ framed with events := [.op 9 (OpWires.zero 9)] } : State).Inv ∧
    step { framed with events := [.op 9 (OpWires.zero 9)] } = .next (dlbuild params framed) :=
  ⟨witness_FramesReadableWhenDone.1, rfl⟩
theorem witness_DoneOnlyByRecognisedCommand :
    ∃ t, (given (.op 10 { OpWires.zero 10 with req := ⟨0, ⟨0, 0, 0, ident⟩⟩ })).status.done = false ∧
      step (given (.op 10 { OpWires.zero 10 with req := ⟨0, ⟨0, 0, 0, ident⟩⟩ })) = .next t ∧ t.status.done = true :=
  ⟨runCommand params .pair (acceptRequest ⟨0, ⟨0, 0, 0, ident⟩⟩ blank), rfl, exec_encode_some rfl blank,
    by rw [runCommand_status]⟩
theorem witness_UnitOperationsKeepControl :
    step (given (.op 8 (OpWires.zero 8))) = .next (hfbuild params blank) ∧
    step ({ framed with events := [.read .done] } : State) = .next framed := ⟨rfl, rfl⟩

end Sys2Proof.Tests
end

section
/-! SUPPORT. What a step can do (00_scope.md R8, R9): the branch that the next event selects, and the state each
branch leaves when it goes on. Every fact about all steps that go on is a case analysis over `step_next_cases`,
`eq_execResult`, `quietEvent_next_cases` and `rejected_next`. -/

namespace Sys2Proof.Machine

open Sys2Proof Sys2Proof.Config

/-! ### The branches of a step -/

theorem State.popEvent_of_cons {s : State} {e : Event} {rest : List Event} (h : s.events = e :: rest) :
    s.popEvent = { s with events := rest } := by
  rw [State.popEvent, h, List.tail_cons]

theorem step_of_no_event {s : State} (h : s.events = []) : step s = .next s := by
  simp [step, h]

theorem step_of_decoded {s : State} {e : Event} {rest : List Event} {p : Presented} {i : Instr}
    (h : s.events = e :: rest) (hp : e.presented = some p) (hd : decode p = .ok i) : step s = exec i s.popEvent := by
  simp [step, h, hp, hd]

theorem step_of_rejected {s : State} {e : Event} {rest : List Event} {p : Presented} {r : Reject}
    (h : s.events = e :: rest) (hp : e.presented = some p) (hd : decode p = .error r) :
    step s = rejected r s.popEvent := by
  simp [step, h, hp, hd]

theorem step_of_quiet {s : State} {e : Event} {rest : List Event} (h : s.events = e :: rest)
    (hp : e.presented = none) : step s = quietEvent e s.popEvent := by
  simp [step, h, hp]

/-- A step that goes on had no event, or its event presented nothing, an operation, or something rejected. -/
theorem step_next_cases {s t : State} (h : step s = .next t) :
    (s.events = [] ∧ t = s) ∨
    ∃ e rest, s.events = e :: rest ∧
      ((e.presented = none ∧ quietEvent e s.popEvent = .next t) ∨
        ∃ p, e.presented = some p ∧
          ((∃ i, decode p = .ok i ∧ exec i s.popEvent = .next t) ∨
            ∃ r, decode p = .error r ∧ rejected r s.popEvent = .next t)) := by
  cases he : s.events with
  | nil =>
    rw [step_of_no_event he] at h
    cases h
    exact .inl ⟨rfl, rfl⟩
  | cons e rest =>
    refine .inr ⟨e, rest, rfl, ?_⟩
    cases hp : e.presented with
    | none => exact .inl ⟨rfl, step_of_quiet he hp ▸ h⟩
    | some p =>
      refine .inr ⟨p, rfl, ?_⟩
      cases hd : decode p with
      | ok i => exact .inl ⟨i, rfl, step_of_decoded he hp hd ▸ h⟩
      | error r => exact .inr ⟨r, rfl, step_of_rejected he hp hd ▸ h⟩

/-! ### The state that each branch leaves -/

/-- The state an operation leaves when it goes on, whatever its guard. -/
def execResult (i : Instr) (s : State) : State :=
  match i with
  | .pair o => runCommand params .pair (acceptRequest ⟨Command.code .pair, o⟩ s)
  | .off o => runCommand params .off (acceptRequest ⟨Command.code .off, o⟩ s)
  | .on o => runCommand params .on (acceptRequest ⟨Command.code .on, o⟩ s)
  | .bright o => runCommand params .bright (acceptRequest ⟨Command.code .bright, o⟩ s)
  | .cct o => runCommand params .cct (acceptRequest ⟨Command.code .cct, o⟩ s)
  | .crc16f b start length initial => crc16fOn b start length initial s
  | .crc16r => crc16rOn s
  | .rev8 b => { s with rev := rev8 b }.loopsDone
  | .blkenc => blkencOf params s.block s
  | .dtab => dtabOn params s
  | .obf b start length key => obfOn params b start length key s
  | .perm b length key => permOn params b length key s
  | .hfbuild => hfbuild params s
  | .dlbuild => dlbuild params s
  | .encode r => encodeOn params r s

/-- A guarded operation that goes on leaves the state its guard admits. -/
theorem eq_of_guarded_next {p : Prop} [Decidable p] {s t : State} {f : Fault}
    (h : (if p then Host.Outcome.next s else .fault f : Host.Outcome State Fault Refusal) = .next t) : t = s := by
  split at h
  · exact (Host.Outcome.next.inj h).symm
  · cases h

/-- `execResult` is what `exec` leaves, for every operation that goes on. -/
theorem eq_execResult {i : Instr} {s t : State} (h : exec i s = .next t) : t = execResult i s := by
  cases i with
  | crc16f | crc16r | blkenc | perm => exact eq_of_guarded_next h
  | obf b start length key =>
    simp only [exec, execObf] at h
    split at h
    · cases h
    · exact eq_of_guarded_next h
  | pair | off | on | bright | cct | rev8 | dtab | hfbuild | dlbuild | encode =>
    exact (Host.Outcome.next.inj h).symm

/-- A quiet event that goes on is `rst`, which resets the core, or it changes nothing. -/
theorem quietEvent_next_cases {e : Event} {s t : State} (h : quietEvent e s = .next t) :
    ((∃ start r, e = .ports true start r) ∧ t = resetCore s) ∨
    ((∀ start r, e ≠ .ports true start r) ∧ t = s) := by
  cases e with
  | ports rst start r =>
    cases rst with
    | true => exact .inl ⟨⟨start, r, rfl⟩, (Host.Outcome.next.inj h).symm⟩
    | false => exact .inr ⟨by simp, (Host.Outcome.next.inj h).symm⟩
  | op sel x => exact .inr ⟨by simp, (Host.Outcome.next.inj h).symm⟩
  | read port =>
    simp only [quietEvent] at h
    split at h
    · exact .inr ⟨by simp, (Host.Outcome.next.inj h).symm⟩
    · cases h

/-- Of what the decoder rejects, only a request with an unrecognised command goes on (30_encoding.md R73). -/
theorem rejected_next {r : Reject} {s t : State} (h : rejected r s = .next t) :
    ∃ q, r = .unknownCommand q ∧ t = raiseUnknownCommand (acceptRequest q s) := by
  cases r with
  | unknownCommand q => exact ⟨q, rfl, (Host.Outcome.next.inj h).symm⟩
  | unusedSelect | bufferNotReached => cases h

/-! ### No branch touches the pending events -/

@[simp] theorem resetCore_events (s : State) : (resetCore s).events = s.events := rfl

@[simp] theorem encodeOn_events (P : Params) (r : Request) (s : State) : (encodeOn P r s).events = s.events := by
  unfold encodeOn
  split <;> simp

@[simp] theorem execResult_events (i : Instr) (s : State) : (execResult i s).events = s.events := by
  cases i <;> simp [execResult]

theorem exec_events {i : Instr} {s t : State} (h : exec i s = .next t) : t.events = s.events := by
  rw [eq_execResult h, execResult_events]

theorem quietEvent_events {e : Event} {s t : State} (h : quietEvent e s = .next t) : t.events = s.events := by
  obtain ⟨-, rfl⟩ | ⟨-, rfl⟩ := quietEvent_next_cases h
  · exact resetCore_events s
  · rfl

theorem rejected_events {r : Reject} {s t : State} (h : rejected r s = .next t) : t.events = s.events := by
  obtain ⟨q, -, rfl⟩ := rejected_next h
  simp

/-! ### The statements -/

/-- Settles O8: the branch of `step` that a decoded event selects. -/
theorem stepRunsDecodedInstruction : Obligations.StepRunsDecodedInstruction :=
  fun _ _ _ _ _ he hp hd => ⟨step_of_decoded he hp hd, State.popEvent_of_cons he⟩

/-- Settles O10: `step` pops one event, and no branch that goes on touches the events that remain. -/
theorem stepConsumesOneEvent : Obligations.StepConsumesOneEvent := by
  intro s t h
  rw [← State.popEvent_events]
  obtain ⟨he, rfl⟩ | ⟨e, rest, -, ⟨-, hq⟩ | ⟨p, -, ⟨i, -, hx⟩ | ⟨r, -, hr⟩⟩⟩ := step_next_cases h
  · simp [he]
  · exact quietEvent_events hq
  · exact exec_events hx
  · exact rejected_events hr

end Sys2Proof.Machine
end

section
/-! SUPPORT. How a request reaches ENCODE: the request word gives back its request (30_encoding.md R71), and a
request on the ports is run whatever the phase (10_state.md R20). -/

namespace Sys2Proof.Machine

open Sys2Proof Sys2Proof.Config

/-! ### The request word -/

theorem ident_literal (v : Vector Byte 5) : #v[v[0], v[1], v[2], v[3], v[4]] = v := by
  ext i hi
  interval_cases i <;> rfl

/-- No bit of a request is lost in its word: each field's bits are found by dropping the fields above and below
it, for which the word's width has to stay a sum of the fields' widths. -/
@[simp] theorem ofWord_word (r : Request) : Request.ofWord r.word = r := by
  obtain ⟨cmd, param, counter, rnd, ident⟩ := r
  simp only [Request.ofWord, Request.word, BitVec.extractLsb'_cast]
  simp [-Nat.reduceAdd, -Vector.mk_eq, BitVec.extractLsb'_append_eq_of_le, BitVec.extractLsb'_append_eq_of_add_le,
    BitVec.extractLsb'_eq_self, ident_literal]

theorem decode_word (r : Request) : decode (.req r.word) = decodeRequest r := by
  rw [decode, ofWord_word]

theorem decodeRequest_some {r : Request} {c : Command} (h : Command.ofCode r.cmd = some c) :
    decodeRequest r = .ok (c.instr r.ops) := by
  simp [decodeRequest, h]

theorem decodeRequest_none {r : Request} (h : Command.ofCode r.cmd = none) :
    decodeRequest r = .error (.unknownCommand r) := by
  simp [decodeRequest, h]

/-! ### ENCODE, by its two forms -/

theorem encodeOn_some {P : Params} {r : Request} {c : Command} (h : Command.ofCode r.cmd = some c) (s : State) :
    encodeOn P r s = runCommand P c (acceptRequest r s) := by
  simp [encodeOn, h]

theorem encodeOn_none {P : Params} {r : Request} (h : Command.ofCode r.cmd = none) (s : State) :
    encodeOn P r s = raiseUnknownCommand (acceptRequest r s) := by
  simp [encodeOn, h]

@[simp] theorem encodeOn_latches (P : Params) (r : Request) (s : State) :
    (encodeOn P r s).latches = ⟨r.cmd, r.ops.param, r.ops.ident, r.ops.counter, r.ops.rnd⟩ := by
  unfold encodeOn
  split <;> simp

/-- A recognised code ends ENCODE in phase DONE. -/
theorem encodeOn_status_recognised {P : Params} {r : Request} (h : r.cmd.toNat ≤ 4) (s : State) :
    (encodeOn P r s).status = ⟨.done, true, false, .none⟩ := by
  obtain ⟨c, hc⟩ := ofCode_isSome h
  rw [encodeOn_some hc, runCommand_status, acceptRequest_status]

/-- Any other code ends ENCODE in phase ERR. -/
theorem encodeOn_status_unknown {P : Params} {r : Request} (h : 5 ≤ r.cmd.toNat) (s : State) :
    (encodeOn P r s).status = ⟨.err, false, true, .unknownCommand⟩ := by
  rw [encodeOn_none (ofCode_eq_none h), raiseUnknownCommand_status]

theorem encodeOn_framesWhole {P : Params} {r : Request} (h : r.cmd.toNat ≤ 4) (s : State) :
    (encodeOn P r s).framesWhole := by
  obtain ⟨c, hc⟩ := ofCode_isSome h
  rw [encodeOn_some hc]
  exact runCommand_framesWhole P c _

/-- A request on the ports is ENCODE with that request, in any phase. -/
theorem step_of_request {s : State} {r : Request} {rest : List Event} (h : s.events = .ports false true r :: rest) :
    step s = .next (encodeOn params r s.popEvent) := by
  cases hc : Command.ofCode r.cmd with
  | some c =>
    rw [step_of_decoded h rfl ((decode_word r).trans (decodeRequest_some hc)), exec_instr, code_of_ofCode hc,
      encodeOn_some hc]
  | none =>
    rw [step_of_rejected h rfl ((decode_word r).trans (decodeRequest_none hc)), encodeOn_none hc]
    rfl

/-- Settles O9: the step is ENCODE with the request, which ends in DONE or ERR by the code. -/
theorem everyRequestEnds : Obligations.EveryRequestEnds := by
  intro s r rest h
  exact ⟨_, step_of_request h, by simp [h], encodeOn_latches .., fun hc => encodeOn_status_recognised hc _,
    fun hc => encodeOn_status_unknown hc _⟩

end Sys2Proof.Machine
end

section
/-! SUPPORT. What every step that goes on does to the parts the invariant speaks of: it resets the core, runs
ENCODE with a request, or keeps them. The invariant and the rise of DONE are two readings of `step_next_effect`. -/

namespace Sys2Proof.Machine

open Sys2Proof Sys2Proof.Config

/-! ### What a unit operation keeps -/

/-- STATUS and the orchestrator's registers are as they were, the cipher table is or has become the constant
one, canonical buffers stay canonical and whole frames whole. -/
structure KeepsSound (s t : State) : Prop where
  status      : t.status = s.status
  orch        : t.orch = s.orch
  table       : t.table = s.table ∨ t.table = dtab params
  memoryWf    : s.memoryWf → t.memoryWf
  framesWhole : s.framesWhole → t.framesWhole

theorem framesWhole_iff (s : State) :
    s.framesWhole ↔
      ((s.buf .hfout).holds 0 26 = true ∧ (s.buf .hfout).slice 0 4 = hfFrameHead ∧
        (s.buf .hfout).slice 20 6 = hfFrameTail) ∧
      ((s.buf .dlout).holds 0 26 = true ∧ (s.buf .dlout).slice 16 10 = dlFiller) := by
  simp only [and_assoc]
  rfl

theorem framesWhole_of_buf {s t : State} (hhf : t.buf .hfout = s.buf .hfout) (hdl : t.buf .dlout = s.buf .dlout)
    (h : s.framesWhole) : t.framesWhole := by
  rw [framesWhole_iff] at h ⊢
  rwa [hhf, hdl]

/-- An operation that writes neither a control register, nor the table, nor a buffer. -/
theorem keepsSound_of_mem {s t : State} (hst : t.status = s.status) (ho : t.orch = s.orch)
    (ht : t.table = s.table) (hm : t.mem = s.mem) : KeepsSound s t :=
  ⟨hst, ho, .inl ht, memoryWf_of_mem hm, framesWhole_of_buf (by simp [State.buf, hm]) (by simp [State.buf, hm])⟩

theorem keepsSound_popEvent (s : State) : KeepsSound s s.popEvent := keepsSound_of_mem rfl rfl rfl rfl

theorem blkencOf_keepsSound (v : Vector Byte 8) (s : State) : KeepsSound s (blkencOf params v s) :=
  ⟨by simp, by simp, .inl (by simp), blkencOf_memoryWf,
    framesWhole_of_buf (by simp [blkencOf_buf]) (by simp [blkencOf_buf])⟩

theorem dtabOn_keepsSound (s : State) : KeepsSound s (dtabOn params s) :=
  ⟨by simp, by simp, .inr (by simp), dtabOn_memoryWf,
    framesWhole_of_buf (by simp [dtabOn_buf]) (by simp [dtabOn_buf])⟩

/-- OBF writes its buffer, which is no frame, and `BLK`. -/
theorem obfOn_keepsSound {b : Space} (hb : b.obfWrites = true) (start length : Nat) (key : Byte) (s : State) :
    KeepsSound s (obfOn params b start length key s) := by
  have hhf : Space.hfout ≠ b := by rintro rfl; cases hb
  have hdl : Space.dlout ≠ b := by rintro rfl; cases hb
  exact ⟨by simp, by simp, .inr (by simp), obfOn_memoryWf,
    framesWhole_of_buf (by simp [obfOn_buf, dtabOn_buf, hhf]) (by simp [obfOn_buf, dtabOn_buf, hdl])⟩

/-- PERM writes its buffer alone, which is no frame. -/
theorem permOn_keepsSound {b : Space} (hb : b.permWrites = true) (length : Nat) (key : Byte) (s : State) :
    KeepsSound s (permOn params b length key s) := by
  have hhf : Space.hfout ≠ b := by rintro rfl; cases hb
  have hdl : Space.dlout ≠ b := by rintro rfl; cases hb
  exact ⟨by simp, by simp, .inl (by simp), permOn_memoryWf,
    framesWhole_of_buf (by simp [permOn_buf, hhf]) (by simp [permOn_buf, hdl])⟩

/-- HFBUILD writes a whole HF frame and leaves the other one. -/
theorem hfbuild_keepsSound (s : State) : KeepsSound s (hfbuild params s) := by
  refine ⟨by simp, by simp, .inr (by simp), hfbuild_memoryWf, fun h => ?_⟩
  have hdl : (hfbuild params s).buf .dlout = s.buf .dlout := by
    rw [hfbuild_buf]
    simp only [reduceCtorEq, if_false]
  have hhf : (hfbuild params s).buf .hfout =
      Memory.ofBytes 0 (hfFrameHead ++ hfCoreFinal params s ++ hfFrameTail) := by
    rw [hfbuild_buf, if_pos rfl]
  have hwhole := hfFrame_whole (length_hfCoreFinal params s) hhf
  rw [framesWhole_iff] at h ⊢
  rw [hdl]
  exact ⟨hwhole, h.2⟩

/-- DLBUILD writes a whole Deli16 frame and leaves the other one. -/
theorem dlbuild_keepsSound (s : State) : KeepsSound s (dlbuild params s) := by
  refine ⟨by simp, by simp, .inl (by simp), dlbuild_memoryWf, fun h => ?_⟩
  have hhf : (dlbuild params s).buf .hfout = s.buf .hfout := by
    rw [dlbuild_buf]
    simp only [reduceCtorEq, if_false]
  have hdl : (dlbuild params s).buf .dlout =
      Memory.ofBytes 0 (((dlScratchSecond params s).drop 13).take 16 ++ dlFiller) := by
    rw [dlbuild_buf, if_pos rfl]
  have hwhole := dlFrame_whole (by simp) hdl
  rw [framesWhole_iff] at h ⊢
  rw [hhf]
  exact ⟨h.1, hwhole⟩

/-! ### The effect of a step -/

/-- The event presents the request `r` for ENCODE: on the ports with `start` = 1 and `rst` = 0, or by select
1010. -/
def encodesRequest (e : Event) (r : Request) : Prop :=
  e = .ports false true r ∨ ∃ x : OpWires, x.req = r ∧ e = .op 10 x

/-- What an event presents is a request on the ports, packed into its word, or a driven select. -/
theorem presented_cases {e : Event} {p : Presented} (h : e.presented = some p) :
    (∃ r, e = .ports false true r ∧ p = .req r.word) ∨ ∃ sel x, e = .op sel x ∧ p = .op sel x := by
  cases e with
  | ports rst start r =>
    simp only [Event.presented, Option.ite_none_right_eq_some, Option.some.injEq] at h
    obtain ⟨⟨rfl, rfl⟩, rfl⟩ := h
    exact .inl ⟨r, rfl, rfl⟩
  | op sel x => exact .inr ⟨sel, x, rfl, (Option.some.inj h).symm⟩
  | read port => cases h

theorem reaching_eq_ok {reaches : Bool} {b : Space} {i j : Instr} (h : reaching reaches b i = .ok j) :
    reaches = true ∧ j = i := by
  unfold reaching at h
  split at h
  · next hr => exact ⟨hr, (Except.ok.inj h).symm⟩
  · cases h

theorem reaching_ne_unknownCommand (reaches : Bool) (b : Space) (i : Instr) (r : Request) :
    reaching reaches b i ≠ .error (.unknownCommand r) := by
  unfold reaching
  split <;> simp

/-- A driven select raises no UnknownCommand in the decoder. -/
theorem decodeSelect_ne_unknownCommand (sel : BitVec 4) (x : OpWires) (r : Request) :
    decodeSelect sel x ≠ .error (.unknownCommand r) := by
  unfold decodeSelect
  split <;> simp [reaching_ne_unknownCommand]

/-- A driven select that decodes is ENCODE, by 1010, or a unit operation that keeps what the invariant speaks
of. -/
theorem decodeSelect_effect {sel : BitVec 4} {x : OpWires} {i : Instr} (h : decodeSelect sel x = .ok i) :
    (sel = 10 ∧ i = .encode x.req) ∨ ∀ s, KeepsSound s (execResult i s) := by
  unfold decodeSelect at h
  split at h
  case h_1 =>
    obtain ⟨-, rfl⟩ := reaching_eq_ok h
    exact .inr fun s => keepsSound_of_mem (crc16fOn_status ..) (crc16fOn_orch ..) (crc16fOn_table ..) (crc16fOn_mem ..)
  case h_2 =>
    cases h
    exact .inr fun s => keepsSound_of_mem (crc16rOn_status s) (crc16rOn_orch s) (crc16rOn_table s) (crc16rOn_mem s)
  case h_3 => cases h; exact .inr fun s => keepsSound_of_mem rfl rfl rfl rfl
  case h_4 => cases h; exact .inr fun s => blkencOf_keepsSound s.block s
  case h_5 => cases h; exact .inr dtabOn_keepsSound
  case h_6 =>
    obtain ⟨hb, rfl⟩ := reaching_eq_ok h
    exact .inr (obfOn_keepsSound hb x.start x.length x.key)
  case h_7 =>
    obtain ⟨hb, rfl⟩ := reaching_eq_ok h
    exact .inr (permOn_keepsSound hb x.length x.key)
  case h_8 => cases h; exact .inr hfbuild_keepsSound
  case h_9 => cases h; exact .inr dlbuild_keepsSound
  case h_10 hsel => cases h; exact .inl ⟨BitVec.eq_of_toNat_eq hsel, rfl⟩
  case h_11 => cases h

/-- A step that goes on resets the core, runs ENCODE with the request its event presents, or keeps what the
invariant speaks of. -/
theorem step_next_effect {s t : State} (h : step s = .next t) :
    t = resetCore s.popEvent ∨
    (∃ e r, s.events.head? = some e ∧ encodesRequest e r ∧ t = encodeOn params r s.popEvent) ∨
    KeepsSound s.popEvent t := by
  obtain ⟨he, rfl⟩ | ⟨e, rest, he, ⟨-, hq⟩ | ⟨p, hp, hb⟩⟩ := step_next_cases h
  · exact .inr (.inr (keepsSound_of_mem rfl rfl rfl rfl))
  · obtain ⟨-, rfl⟩ | ⟨-, rfl⟩ := quietEvent_next_cases hq
    · exact .inl rfl
    · exact .inr (.inr (keepsSound_of_mem rfl rfl rfl rfl))
  · have hhead : s.events.head? = some e := by rw [he, List.head?_cons]
    obtain ⟨r, rfl, -⟩ | ⟨sel, x, rfl, rfl⟩ := presented_cases hp
    · rw [step_of_request he] at h
      exact .inr (.inl ⟨_, r, hhead, .inl rfl, (Host.Outcome.next.inj h).symm⟩)
    · obtain ⟨i, hd, hx⟩ | ⟨r, hd, hr⟩ := hb
      · obtain ⟨rfl, rfl⟩ | hkeep := decodeSelect_effect hd
        · exact .inr (.inl ⟨_, x.req, hhead, .inr ⟨x, rfl, rfl⟩, eq_execResult hx⟩)
        · exact .inr (.inr (eq_execResult hx ▸ hkeep _))
      · obtain ⟨q, rfl, -⟩ := rejected_next hr
        exact absurd hd (decodeSelect_ne_unknownCommand sel x q)

end Sys2Proof.Machine
end

section
/-! SUPPORT. The invariant (10_state.md R23, R25, R28, R30, R31): it holds after reset and after ENCODE, and
what keeps its parts keeps it. -/

namespace Sys2Proof.Machine

open Sys2Proof Sys2Proof.Config

theorem consistent_idle : Status.consistent ⟨.idle, false, false, .none⟩ := by decide
theorem consistent_done : Status.consistent ⟨.done, true, false, .none⟩ := by decide
theorem consistent_err : Status.consistent ⟨.err, false, true, .unknownCommand⟩ := by decide

/-- While DONE = 0 the invariant asks nothing of the frames. -/
theorem inv_of_not_done {s : State} (hm : s.memoryWf) (hc : s.status.consistent) (hd : s.status.done = false) :
    s.Inv :=
  ⟨hm, hc, fun h => absurd h (by simp [hd])⟩

theorem KeepsSound.inv {s t : State} (h : KeepsSound s t) (hs : s.Inv) : t.Inv := by
  obtain ⟨hm, hc, hdone⟩ := hs
  unfold State.Inv
  rw [h.status, h.orch]
  refine ⟨h.memoryWf hm, hc, fun hd => ?_⟩
  obtain ⟨hframes, hsettled, htable⟩ := hdone hd
  exact ⟨h.framesWhole hframes, hsettled, h.table.elim (fun e => e.trans htable) id⟩

theorem powerUp_inv (occasion : Nat) (events : List Event) : (State.powerUp occasion events).Inv := by
  have hm : (State.powerUp occasion events).memoryWf := by
    rw [memoryWf_iff]
    intro b
    cases b <;> exact Memory.nil_wf _
  exact inv_of_not_done hm consistent_idle rfl

/-- The high byte of a clamped parameter is at most 3: 1000 = 3 * 256 + 232. -/
theorem high8_clamp_le (v : Half) : (high8 (clamp v)).toNat ≤ 3 := by
  have hclamp : (clamp v).toNat ≤ 1000 := by
    unfold clamp
    split_ifs with _ h
    · decide
    · decide
    · exact BitVec.not_lt.1 h
  simp only [high8, BitVec.extractLsb'_toNat]
  omega

/-- The lookup and the parameter block leave settled orchestrator registers (47_orchestrator.md R186, R188). -/
theorem prepared_settled (P : Params) (c : Command) (s : State) : (prepared P c s).orch.settled := by
  rw [prepared_orch]
  cases hp : takesParam c with
  | true => exact ⟨rfl, rfl, high8_clamp_le _⟩
  | false => exact ⟨rfl, rfl, by simp⟩

/-- ENCODE establishes the invariant from canonical buffers alone. -/
theorem encodeOn_inv {r : Request} {s : State} (hm : s.memoryWf) : (encodeOn params r s).Inv := by
  have hacc := acceptRequest_memoryWf (r := r) hm
  cases hc : Command.ofCode r.cmd with
  | some c =>
    rw [encodeOn_some hc]
    refine ⟨runCommand_memoryWf hacc, by rw [runCommand_status]; exact consistent_done, fun _ => ?_⟩
    exact ⟨runCommand_framesWhole .., by rw [runCommand_orch]; exact prepared_settled .., runCommand_table ..⟩
  | none =>
    rw [encodeOn_none hc]
    exact inv_of_not_done (raiseUnknownCommand_memoryWf hacc) consistent_err rfl

/-- Settles O54: reset is `State.powerUp`, which leaves DONE = 0 and empty buffers. -/
theorem resetKeepsInvariant : Obligations.ResetKeepsInvariant := powerUp_inv 0 []

/-- Settles O55: reset and ENCODE establish the invariant, every other step keeps its parts. -/
theorem stepKeepsInvariant : Obligations.StepKeepsInvariant := by
  intro s t hs h
  have hpop : s.popEvent.Inv := (keepsSound_popEvent s).inv hs
  obtain rfl | ⟨e, r, -, -, rfl⟩ | hkeep := step_next_effect h
  · exact powerUp_inv _ _
  · exact encodeOn_inv hpop.1
  · exact hkeep.inv hpop

/-- Settles O56: reset clears DONE, a unit operation keeps it, so ENCODE ran, with a code that it completes. -/
theorem doneOnlyByRecognisedCommand : Obligations.DoneOnlyByRecognisedCommand := by
  intro s t hs h ht
  obtain rfl | ⟨e, r, he, henc, rfl⟩ | hkeep := step_next_effect h
  · cases ht
  · have hcmd : r.cmd.toNat ≤ 4 := by
      by_contra hgt
      rw [encodeOn_status_unknown (by omega)] at ht
      cases ht
    exact ⟨e, r, he, hcmd, encodeOn_framesWhole hcmd _, henc⟩
  · rw [hkeep.status, State.popEvent_status, hs] at ht
    cases ht

end Sys2Proof.Machine
end

section
/-! SUPPORT. What reads: an operand byte without a value, the buffers after reset, and the host's ports
(10_state.md R20, R23, R27, R31, R35). -/

namespace Sys2Proof.Machine

open Sys2Proof Sys2Proof.Config

/-! ### An operand byte without a value -/

/-- A range holds no values throughout when one of its bytes holds none. -/
theorem Memory.holds_eq_false {m : Memory} {start n i : Nat} (hlo : start ≤ i) (hhi : i < start + n)
    (h : m.read i = none) : m.holds start n = false := by
  rw [Bool.eq_false_iff, ne_eq, Memory.holds_iff]
  intro hall
  have hi := hall (i - start) (by omega)
  rw [Nat.add_sub_cancel' hlo, h] at hi
  cases hi

/-- The same for the part of a range that is inside a buffer of `size` bytes (20_memory.md R60). -/
theorem Memory.holds_span_eq_false {m : Memory} {size start length i : Nat} (hlo : start ≤ i)
    (hhi : i < start + length) (hsize : i < size) (h : m.read i = none) :
    m.holds start (spanLen size start length) = false :=
  Memory.holds_eq_false hlo (by unfold spanLen; omega) h

/-- OBF with its selector inside the buffer faults when the selector byte or a byte in range holds no value. -/
theorem execObf_fault {s : State} {b : Space} {start length i : Nat} {key : Byte} (hsel : start + 1 < bufSize b)
    (hi : i = start + 1 ∨ (start ≤ i ∧ i < start + length)) (hsize : i < bufSize b) (h : (s.buf b).read i = none) :
    execObf b start length key s = .fault (.noValue b) := by
  rw [execObf, if_neg (by omega)]
  obtain rfl | ⟨hlo, hhi⟩ := hi
  · rw [Memory.holds_eq_false (Nat.le_refl _) (Nat.lt_succ_self _) h]
    simp
  · rw [Memory.holds_span_eq_false hlo hhi hsize h]
    simp

/-- Settles O19: each operation asks `Memory.holds` of its range, which the byte without a value answers. -/
theorem unwrittenOperandFaults : Obligations.UnwrittenOperandFaults := by
  intro s i
  refine ⟨fun b start length initial hlo hhi hsize h => ?_, fun hi h => ?_, fun hi h => ?_,
    fun b start length key hsel hi hsize h => execObf_fault hsel hi hsize h, fun b length key hi hsize h => ?_⟩
  · simp [exec, execCrc16f, Memory.holds_span_eq_false hlo hhi hsize h]
  · have hh : s.mem.stream.holds 0 11 = false := Memory.holds_eq_false (Nat.zero_le i) (by omega) h
    simp [exec, execCrc16r, hh]
  · have hh : s.mem.blk.holds 0 8 = false := Memory.holds_eq_false (Nat.zero_le i) (by omega) h
    simp [exec, execBlkenc, hh]
  · simp [exec, execPerm, Memory.holds_span_eq_false (Nat.zero_le i) (by simpa using hi) hsize h]

/-! ### Reset and the host's ports -/

theorem powerUp_read (occasion : Nat) (events : List Event) (b : Space) (i : Nat) :
    ((State.powerUp occasion events).buf b).read i = none := by
  cases b <;> rfl

/-- Settles O13: the fields of `State.powerUp`. -/
theorem resetState : Obligations.ResetState := ⟨rfl, powerUp_read 0 [], rfl⟩

@[simp] theorem readPort_phase (s : State) : s.readPort .phase = .ok (.code s.status.phase.code) := rfl
@[simp] theorem readPort_cause (s : State) : s.readPort .cause = .ok (.code s.status.cause.code) := rfl

/-- What is presented next does not show at the ports. -/
@[simp] theorem readPort_popEvent (s : State) (port : OutPort) : s.popEvent.readPort port = s.readPort port := rfl

theorem step_of_read_ok {s : State} {port : OutPort} {rest : List Event} {v : PortValue}
    (h : s.events = .read port :: rest) (hv : s.readPort port = .ok v) : step s = .next { s with events := rest } := by
  rw [step_of_quiet h rfl, ← State.popEvent_of_cons h]
  simp [quietEvent, hv]

theorem step_of_read_error {s : State} {port : OutPort} {rest : List Event} {r : Refusal}
    (h : s.events = .read port :: rest) (hr : s.readPort port = .error r) : step s = .refused r := by
  rw [step_of_quiet h rfl]
  simp [quietEvent, hr]

theorem readFrame_of_not_done {s : State} (h : s.status.done = false) (b : Space) :
    s.readFrame b = .error .framesNotValid := by
  simp [State.readFrame, h]

/-- Settles O16: with DONE = 0 neither frame is read. -/
theorem framesUnreadableUnlessDone : Obligations.FramesUnreadableUnlessDone := by
  intro s rest port hd he hport
  obtain rfl | rfl := hport
  · exact step_of_read_error he (readFrame_of_not_done hd .hfout)
  · exact step_of_read_error he (readFrame_of_not_done hd .dlout)

/-- A port other than the frames answers in every state. -/
theorem readPort_ok {port : OutPort} (hhf : port ≠ .hf) (hdl : port ≠ .dl) (s : State) :
    ∃ v, s.readPort port = .ok v := by
  cases port with
  | phase | done | err | cause => exact ⟨_, rfl⟩
  | hf => exact absurd rfl hhf
  | dl => exact absurd rfl hdl

/-- Settles O59: the codes of R23 and R206, and a read that is answered changes nothing. -/
theorem statusReadInAnyPhase : Obligations.StatusReadInAnyPhase := by
  intro s
  refine ⟨fun h => ?_, fun h => ?_, fun h => ?_, rfl, rfl, fun h => ?_, fun h => ?_, fun port rest hhf hdl he => ?_⟩
  · simp [h, Phase.code]
  · simp [h, Phase.code]
  · simp [h, Phase.code]
  · simp [h, Cause.code]
  · simp [h, Cause.code]
  · obtain ⟨v, hv⟩ := readPort_ok hhf hdl s
    exact step_of_read_ok he hv

end Sys2Proof.Machine
end

section
/-! SUPPORT. Which operations the decoder gives: it gives a buffer operand only where 20_memory.md R51 does, and
rejects by name what is driven at another buffer. -/

namespace Sys2Proof.Machine

open Sys2Proof Sys2Proof.Claims

/-! ### The buffers of R51 -/

theorem crcReads_iff (b : Space) : b.crcReads = true ↔ b = .hfcore ∨ b = .stream := by
  cases b <;> simp [Space.crcReads]

theorem obfWrites_iff (b : Space) : b.obfWrites = true ↔ b = .hfcore := by
  cases b <;> simp [Space.obfWrites]

theorem permWrites_iff (b : Space) : b.permWrites = true ↔ b = .sub ∨ b = .scratch := by
  cases b <;> simp [Space.permWrites]

/-! ### What the decoder gives -/

theorem instr_wf (c : Command) (o : ReqOperands) : (c.instr o).wf = true := by
  cases c <;> rfl

theorem decodeRequest_wf {r : Request} {i : Instr} (h : decodeRequest r = .ok i) : i.wf = true := by
  cases hc : Command.ofCode r.cmd with
  | some c =>
    rw [decodeRequest_some hc] at h
    cases h
    exact instr_wf c r.ops
  | none =>
    rw [decodeRequest_none hc] at h
    cases h

/-- Only CRC16F, OBF and PERM carry a buffer operand, and `reaching` guards each of them. -/
theorem decodeSelect_wf {sel : BitVec 4} {x : OpWires} {i : Instr} (h : decodeSelect sel x = .ok i) :
    i.wf = true := by
  unfold decodeSelect at h
  split at h
  case h_1 | h_6 | h_7 =>
    obtain ⟨hb, rfl⟩ := reaching_eq_ok h
    exact hb
  case h_11 => cases h
  all_goals
    cases h
    rfl

/-- Settles O4: by the two formats. -/
theorem decodedIsWellFormed : Obligations.DecodedIsWellFormed := by
  intro p i h
  cases p with
  | req w => exact decodeRequest_wf h
  | op sel x => exact decodeSelect_wf h

/-! ### What the decoder rejects -/

theorem reaching_eq_error {reaches : Bool} (b : Space) (i : Instr) (h : reaches = false) :
    reaching reaches b i = .error (.bufferNotReached b) := by
  rw [reaching, h, if_neg Bool.false_ne_true]

/-- An operation that is not well formed is one of the three that `reaching` guards. -/
theorem decode_encode_of_not_wf {i : Instr} (h : i.wf = false) :
    ∃ b, decode (encode i) = .error (.bufferNotReached b) := by
  cases i with
  | crc16f b | obf b | perm b => exact ⟨b, reaching_eq_error b _ h⟩
  | pair | off | on | bright | cct | crc16r | rev8 | blkenc | dtab | hfbuild | dlbuild | encode => cases h

/-- A select that the decoder rejects is refused by the step when the reason stops the machine. -/
theorem refusedAs_of_rejected {sel : BitVec 4} {x : OpWires} {r : Reject} {q : Refusal}
    (hd : decode (.op sel x) = .error r) (hq : ∀ s, rejected r s = .refused q) : refusedAs sel x r q :=
  ⟨hd, fun s _ he => (step_of_rejected he rfl hd).trans (hq s.popEvent)⟩

/-- A select whose decoding `reaching` guards, driven at a buffer it does not reach. -/
theorem refusedAs_of_not_reached {sel : BitVec 4} {x : OpWires} {reaches : Bool} {i : Instr}
    (hd : decode (.op sel x) = reaching reaches x.space i) (h : ¬reaches = true) :
    refusedAs sel x (.bufferNotReached x.space) (.bufferNotReached x.space) :=
  refusedAs_of_rejected (hd.trans (reaching_eq_error x.space i (Bool.eq_false_iff.2 h))) fun _ => rfl

/-- Settles O5: `reaching` guards the three operations, each by the buffers of R51. -/
theorem otherBuffersRejected : Obligations.OtherBuffersRejected := by
  refine ⟨fun i h => decode_encode_of_not_wf h, fun x => ⟨fun hcore hstream => ?_, fun hcore => ?_,
    fun hsub hscratch => ?_⟩⟩
  · exact refusedAs_of_not_reached rfl (by simp [crcReads_iff, hcore, hstream])
  · exact refusedAs_of_not_reached rfl (by simp [obfWrites_iff, hcore])
  · exact refusedAs_of_not_reached rfl (by simp [permWrites_iff, hsub, hscratch])

end Sys2Proof.Machine
end

section
/-! SUPPORT. Reading to the end of a buffer: a CRC16F range is cut there (20_memory.md R60), and a whole frame
holds its 26 bytes and nothing beyond them (20_memory.md R52, 10_state.md R31). -/

namespace Sys2Proof.Machine

open Sys2Proof Sys2Proof.Claims

/-! ### CRC16F at the end of the buffer -/

theorem crcPosition_of_end_le {B : List Byte} {start j : Nat} (h : B.length ≤ start + j) (a : Half) :
    crcPosition B start a j = a := by
  rw [crcPosition, List.getElem?_eq_none h]

/-- Once the range has met the end of the buffer, more positions change nothing. -/
theorem crc16f_add_of_end_le {B : List Byte} {start n : Nat} (h : B.length ≤ start + n) (k : Nat) (a : Half) :
    crc16f B start (n + k) a = crc16f B start n a := by
  induction k with
  | zero => rfl
  | succ k ih => rw [← Nat.add_assoc, crc16f_succ, crcPosition_of_end_le (by omega), ih]

theorem crc16f_min (B : List Byte) (start length : Nat) (a : Half) :
    crc16f B start length a = crc16f B start (min length (B.length - start)) a := by
  obtain hle | hge := Nat.le_total length (B.length - start)
  · rw [Nat.min_eq_left hle]
  · obtain ⟨k, rfl⟩ := Nat.exists_eq_add_of_le hge
    rw [Nat.min_eq_right hge, crc16f_add_of_end_le (by omega)]

/-- Settles O21: the positions past the end contribute nothing, and past a start at the end there are no others. -/
theorem crcCutsAtEnd : Obligations.CrcCutsAtEnd := by
  intro B start length initial
  refine ⟨crc16f_min B start length initial, fun h => ?_⟩
  rw [crc16f_min, Nat.sub_eq_zero_of_le h, Nat.min_zero, crc16f_zero]

/-! ### The frames while DONE = 1 -/

theorem Memory.read_of_size_le {size i : Nat} {m : Memory} (h : m.wf size) (hi : size ≤ i) : m.read i = none := by
  obtain ⟨-, hlt⟩ := h
  induction m with
  | nil => rfl
  | cons c m ih =>
    have hc := hlt c List.mem_cons_self
    rw [Memory.read, if_neg (by omega), ih fun d hd => hlt d (List.mem_cons_of_mem c hd)]

/-- A canonical buffer that holds a value throughout is its slice. -/
theorem Memory.read_eq_getElem?_slice {size : Nat} {m : Memory} (hwf : m.wf size) (hh : m.holds 0 size = true)
    (i : Nat) : m.read i = (m.slice 0 size)[i]? := by
  rw [Memory.getElem?_slice, Nat.zero_add]
  split
  · next hi =>
    obtain ⟨b, hb⟩ := Option.isSome_iff_exists.1 ((Memory.holds_iff m 0 size).1 hh i hi)
    rw [Nat.zero_add] at hb
    rw [hb, Memory.get_of_read hb]
  · next hi => exact Memory.read_of_size_le hwf (Nat.le_of_not_lt hi)

/-- With DONE = 1 a whole canonical frame reads as exactly its 26 bytes. -/
theorem readFrame_of_whole {s : State} {b : Space} (hd : s.status.done = true) (hwf : (s.buf b).wf 26)
    (hh : (s.buf b).holds 0 26 = true) :
    ∃ B, s.readFrame b = .ok (.frame B) ∧ holdsBytes s b B ∧ B.length = 26 :=
  ⟨(s.buf b).slice 0 26, by simp [State.readFrame, hd, hh], Memory.read_eq_getElem?_slice hwf hh,
    Memory.length_slice ..⟩

/-- Settles O17: the invariant makes both frames whole and canonical, so every port answers. -/
theorem framesReadableWhenDone : Obligations.FramesReadableWhenDone := by
  intro s hs hd
  obtain ⟨hm, -, hdone⟩ := hs
  obtain ⟨⟨hholdsHf, -, -⟩, hholdsDl, -⟩ := (framesWhole_iff s).1 (hdone hd).1
  have hwf := (memoryWf_iff s).1 hm
  obtain ⟨hf, hreadHf, hbytesHf, hlenHf⟩ := readFrame_of_whole hd (hwf .hfout) hholdsHf
  obtain ⟨dl, hreadDl, hbytesDl, hlenDl⟩ := readFrame_of_whole hd (hwf .dlout) hholdsDl
  refine ⟨⟨hf, dl, hreadHf, hreadDl, hbytesHf, hbytesDl, hlenHf, hlenDl⟩, fun port rest he => ?_⟩
  cases port with
  | hf => exact step_of_read_ok he hreadHf
  | dl => exact step_of_read_ok he hreadDl
  | phase | done | err | cause => exact step_of_read_ok he rfl

end Sys2Proof.Machine
end

section
/-! SUPPORT. The encoder and the decoder are inverse to each other (30_encoding.md R71, R72, R75), and the codes
that name nothing are exactly the ones the spec leaves unused (R73, R75, R84). -/

namespace Sys2Proof.Machine

open Sys2Proof Sys2Proof.Config Sys2Proof.Claims

/-! ### The request word and its fields -/

/-- Settles O1: the fields of `r.word` are those of the request it gives back. -/
theorem requestWordFields : Obligations.RequestWordFields := by
  intro r
  have h := ofWord_word r
  have hops := congrArg Request.ops h
  have hident := congrArg ReqOperands.ident hops
  exact ⟨congrArg Request.cmd h, congrArg ReqOperands.param hops, congrArg ReqOperands.counter hops,
    congrArg ReqOperands.rnd hops, congrArg (·[0]) hident, congrArg (·[1]) hident, congrArg (·[2]) hident,
    congrArg (·[3]) hident, congrArg (·[4]) hident⟩

/-- The nine fields cover the word: each is the run of bits next above the one before it, so that appending them
joins the runs to the whole. -/
@[simp] theorem word_ofWord (w : BitVec 83) : (Request.ofWord w).word = w := by
  simp [Request.ofWord, Request.word, -Nat.reduceAdd, BitVec.extractLsb'_append_extractLsb'_eq_extractLsb']

/-! ### Encoding, then decoding -/

theorem decode_encodeCommand (c : Command) (o : ReqOperands) : decode (encodeCommand c o) = .ok (c.instr o) := by
  rw [encodeCommand, decode_word, decodeRequest_some (ofCode_code c)]

theorem reaching_eq_ok_of_reaches {reaches : Bool} (b : Space) (i : Instr) (h : reaches = true) :
    reaching reaches b i = .ok i := by
  rw [reaching, if_pos h]

/-- Settles O2: a command comes back from its request word, a unit operation from its select and the operand
values beside it, where well-formedness is what `reaching` asks for. -/
theorem decodeEncodeRoundTrip : Obligations.DecodeEncodeRoundTrip := by
  intro i h
  cases i with
  | pair o => exact decode_encodeCommand .pair o
  | off o => exact decode_encodeCommand .off o
  | on o => exact decode_encodeCommand .on o
  | bright o => exact decode_encodeCommand .bright o
  | cct o => exact decode_encodeCommand .cct o
  | crc16f b | obf b | perm b => exact reaching_eq_ok_of_reaches b _ h
  | crc16r | rev8 | blkenc | dtab | hfbuild | dlbuild | encode => rfl

/-! ### Decoding, then encoding -/

theorem encode_instr (c : Command) (o : ReqOperands) : encode (c.instr o) = encodeCommand c o := by
  cases c <;> rfl

theorem encode_of_decodeRequest {r : Request} {i : Instr} (h : decodeRequest r = .ok i) : encode i = .req r.word := by
  cases hc : Command.ofCode r.cmd with
  | some c =>
    rw [decodeRequest_some hc] at h
    cases h
    rw [encode_instr, encodeCommand, code_of_ofCode hc]
  | none =>
    rw [decodeRequest_none hc] at h
    cases h

/-- Settles O3: the operation encodes to the word of the request it was decoded from. -/
theorem encodeDecodeRequest : Obligations.EncodeDecodeRequest := by
  intro w i h
  rw [encode_of_decodeRequest h, word_ofWord]

/-! ### The codes that name nothing -/

theorem decodeSelect_unused {sel : BitVec 4} (x : OpWires) (h : sel.toNat = 0 ∨ 11 ≤ sel.toNat) :
    decodeSelect sel x = .error (.unusedSelect sel) := by
  unfold decodeSelect
  split
  case h_11 => rfl
  all_goals omega

theorem reaching_ok_or_error (reaches : Bool) (b : Space) (i : Instr) :
    (∃ j, reaching reaches b i = .ok j) ∨ reaching reaches b i = .error (.bufferNotReached b) := by
  cases reaches with
  | true => exact .inl ⟨i, rfl⟩
  | false => exact .inr rfl

theorem decodeSelect_used {sel : BitVec 4} (x : OpWires) (hlo : 1 ≤ sel.toNat) (hhi : sel.toNat ≤ 10) :
    (∃ i, decodeSelect sel x = .ok i) ∨ decodeSelect sel x = .error (.bufferNotReached x.space) := by
  unfold decodeSelect
  split
  case h_1 | h_6 | h_7 => exact reaching_ok_or_error ..
  case h_11 =>
    simp only [imp_false] at *
    omega
  all_goals exact .inl ⟨_, rfl⟩

/-- Settles O6: a request by its command code alone, a select by its number alone. -/
theorem onlyUnknownCodesRejected : Obligations.OnlyUnknownCodesRejected := by
  refine ⟨fun w => ⟨fun h => ?_, fun h => ?_⟩, fun sel x => ⟨fun h => ?_, decodeSelect_used x⟩⟩
  · obtain ⟨c, hc⟩ := ofCode_isSome h
    exact ⟨_, decodeRequest_some (r := Request.ofWord w) hc⟩
  · exact decodeRequest_none (r := Request.ofWord w) (ofCode_eq_none h)
  · exact refusedAs_of_rejected (decodeSelect_unused x h) fun _ => rfl

/-- Settles O7: the decoder run on the words. -/
theorem decodesTableWords : Obligations.DecodesTableWords := by
  unfold Obligations.DecodesTableWords
  decide

/-! ### The control codes -/

/-- Bit 7 of a code with seven open bits is its sign. -/
theorem negByte_toInt_neg (low : BitVec 7) : (negByte low).toInt < 0 :=
  BitVec.toInt_neg_of_msb_true (by rw [negByte, BitVec.msb_append]; rfl)

/-- Settles O49: Pair's code is the constant of R74, and the open four are `negByte` of their open bits. -/
theorem controlCodesNegative : Obligations.ControlCodesNegative := by
  intro P c
  refine ⟨rfl, ?_⟩
  cases c with
  | pair => exact (by decide : ccPair.toInt < 0)
  | off | on | bright | cct => exact negByte_toInt_neg _

end Sys2Proof.Machine
end

section
/-! SUPPORT. The CRC16 engine (40_crc16.md): bit reversal carries its step to that of a reflected CRC, so that
CRC16R of reversed bytes is the CRC16/X-25 of the bytes; then the two operations on the state, and the CRC of the
Deli16 builder. -/

namespace Sys2Proof.Machine

open Sys2Proof Sys2Proof.Claims

/-! ### Bit reversal -/

theorem reverse_xor {w : Nat} (x y : BitVec w) : (x ^^^ y).reverse = x.reverse ^^^ y.reverse := by
  ext i hi
  simp only [BitVec.getElem_reverse, BitVec.getElem_xor, BitVec.getMsbD_xor]

theorem reverse_shiftLeft {w : Nat} (x : BitVec w) (n : Nat) : (x <<< n).reverse = x.reverse >>> n := by
  ext i hi
  simp [BitVec.getElem_reverse, BitVec.getLsbD_reverse, Nat.add_comm]

/-- The eight bits, one by one (R110). -/
theorem rev8_eq_reverse (b : Byte) : rev8 b = b.reverse := by
  ext i hi
  interval_cases i <;> simp [rev8, List.range_succ, BitVec.getElem_reverse, BitVec.getMsbD]

@[simp] theorem rev8_rev8 (b : Byte) : rev8 (rev8 b) = b := by
  rw [rev8_eq_reverse, rev8_eq_reverse, BitVec.reverse_reverse_eq]

theorem high8_append_low8 (a : Half) : high8 a ++ low8 a = a := BitVec.extractLsb'_append_extractLsb'

/-- Reversing each byte and exchanging the two reverses all 16 bits (R104). -/
theorem reflout_eq_not_reverse (a : Half) : reflout a = ~~~a.reverse := by
  have h : rev8 (low8 a) ++ rev8 (high8 a) = a.reverse := by
    rw [rev8_eq_reverse, rev8_eq_reverse]
    conv_rhs => rw [← high8_append_low8 a, BitVec.reverse_append]
    rfl
  rw [reflout, h]
  exact BitVec.xor_allOnes

/-- Settles O22: the output stage is the 16-bit reversal, inverted. -/
theorem refloutReversesAndInverts : Obligations.RefloutReversesAndInverts := by
  intro a i hi
  rw [reflout_eq_not_reverse, BitVec.getLsbD_not, BitVec.getLsbD_reverse, BitVec.getMsbD]
  simp [show 15 - i < 16 by omega, show 15 - (15 - i) = i by omega]

/-! ### The CRC over a list of bytes -/

theorem toNat_crcStep (a : Half) :
    (crcStep a).toNat = if 2 ^ 15 ≤ a.toNat then (2 * a.toNat % 2 ^ 16) ^^^ 0x1021 else 2 * a.toNat := by
  have hbit : a.getLsbD 15 = decide (2 ^ 15 ≤ a.toNat) := BitVec.msb_eq_decide a
  have hshift : (a <<< 1).toNat = 2 * a.toNat % 2 ^ 16 := by
    rw [BitVec.toNat_shiftLeft, Nat.shiftLeft_eq, Nat.pow_one, Nat.mul_comm]
  simp only [crcStep, hbit, decide_eq_true_eq]
  split_ifs with h
  · rw [BitVec.toNat_xor, hshift]
    rfl
  · rw [hshift, Nat.mod_eq_of_lt (by omega)]

/-- A byte enters at the high byte of the accumulator (R100). -/
theorem crcByte_eq (a : Half) (b : Byte) : crcByte a b = crcStep^[8] (a ^^^ (b ++ 0#8)) := by
  have h : b.setWidth 16 <<< 8 = b ++ 0#8 := by
    simpa using (BitVec.setWidth_append_eq_shiftLeft_setWidth_or (w'' := 16) (b := b) (b' := 0#8)).symm
  rw [crcByte, h]

theorem crc16f_succ_of_getElem? {B : List Byte} {start n : Nat} {b : Byte} (h : B[start + n]? = some b) (a : Half) :
    crc16f B start (n + 1) a = crcByte (crc16f B start n a) b := by
  rw [crc16f_succ, crcPosition, h]

theorem crc16f_length_eq_foldl (B : List Byte) (a : Half) : crc16f B 0 B.length a = B.foldl crcByte a := by
  induction B using List.reverseRecOn with
  | nil => rfl
  | append_singleton B b ih =>
    have hfirst : crc16f (B ++ [b]) 0 B.length a = crc16f B 0 B.length a :=
      crc16f_congr fun j hj => by rw [List.getElem?_append_left (by omega)]
    rw [List.length_append, List.length_singleton, crc16f_succ_of_getElem? (b := b) (by simp), hfirst, ih,
      List.foldl_concat]

theorem crc16f_drop_take (B : List Byte) (start n : Nat) (a : Half) :
    crc16f ((B.drop start).take n) 0 n a = crc16f B start n a :=
  crc16f_congr fun j hj => by rw [List.getElem?_take, if_pos (by omega), List.getElem?_drop, Nat.zero_add]

/-- Settles O20: by induction on the length of the second part. -/
theorem crcChains : Obligations.CrcChains := by
  intro B start n1 n2 a
  induction n2 with
  | zero => rfl
  | succ n2 ih => rw [← Nat.add_assoc, crc16f_succ, crc16f_succ, ih, crcPosition, crcPosition, Nat.add_assoc]

/-! ### The reflected generator -/

/-- Reversed, the left shift is a right shift, bit 15 is bit 0, and 0x1021 is 0x8408. -/
theorem reverse_semiconj_crcStep : Function.Semiconj BitVec.reverse crcStep x25Step := by
  intro a
  have hbit : a.reverse.getLsbD 0 = a.getLsbD 15 := BitVec.getLsbD_reverse
  rw [crcStep, x25Step, hbit]
  split_ifs
  · rw [reverse_xor, reverse_shiftLeft]
    rfl
  · rw [reverse_shiftLeft]

/-- A reversed byte at the high end of the accumulator is the byte itself at the low end of the reversed one. -/
theorem reverse_crcByte_rev8 (a : Half) (b : Byte) : (crcByte a (rev8 b)).reverse = x25Byte a.reverse b := by
  have hin : (rev8 b ++ 0#8 : Half).reverse = b.setWidth 16 := by
    rw [rev8_eq_reverse, BitVec.reverse_append, BitVec.reverse_reverse_eq]
    exact (BitVec.setWidth_eq_append (by decide)).symm
  rw [crcByte_eq, (reverse_semiconj_crcStep.iterate_right 8).eq, reverse_xor, hin, x25Byte]

/-- R105: both folds start at 0xFFFF, which is its own reversal, and both end with an inversion. -/
theorem crc16r_map_rev8 (B : List Byte) : crc16r (B.map rev8) = x25 B := by
  have hfold : ((B.map rev8).foldl crcByte 0xFFFF).reverse = B.foldl x25Byte 0xFFFF := by
    rw [List.foldl_map]
    exact (List.foldl_hom BitVec.reverse fun a b => (reverse_crcByte_rev8 a b).symm).symm
  rw [crc16r, crc16f_length_eq_foldl, reflout_eq_not_reverse, hfold]
  exact BitVec.xor_allOnes.symm

/-- Settles O58: the step in numbers, the recursion over the range, and the reflection. -/
theorem crcStepAndReflection : Obligations.CrcStepAndReflection :=
  ⟨toNat_crcStep, fun B start a => ⟨crc16f_zero B start a, fun _ b h =>
    (crc16f_succ_of_getElem? h a).trans (crcByte_eq _ b)⟩, crc16r_map_rev8⟩

/-! ### CRC16F and CRC16R on the state -/

theorem Memory.holds_of_read {m : Memory} {start n : Nat} {L : List Byte} (hL : L.length = n)
    (h : ∀ k < n, m.read (start + k) = L[k]?) : m.holds start n = true := by
  rw [Memory.holds_iff]
  intro k hk
  rw [h k hk, List.getElem?_eq_getElem (hL ▸ hk), Option.isSome_some]

theorem Memory.slice_of_read {m : Memory} {start n : Nat} {L : List Byte} (hL : L.length = n)
    (h : ∀ k < n, m.read (start + k) = L[k]?) : m.slice start n = L := by
  refine List.ext_getElem? fun k => ?_
  rw [Memory.getElem?_slice]
  split_ifs with hk
  · have hget : L[k]? = some L[k] := List.getElem?_eq_getElem (hL ▸ hk)
    rw [hget, Memory.get_of_read ((h k hk).trans hget)]
  · rw [List.getElem?_eq_none (by omega)]

/-- A buffer that reads as `B` in range holds the range, cut at its end, and its slice is that part of `B`. -/
theorem Memory.span_of_read {m : Memory} {size start length : Nat} {B : List Byte} (hB : B.length = size)
    (h : ∀ i, start ≤ i → i < start + length → i < size → m.read i = B[i]?) :
    m.holds start (spanLen size start length) = true ∧
      m.slice start (spanLen size start length) = (B.drop start).take (spanLen size start length) := by
  have hL : ((B.drop start).take (spanLen size start length)).length = spanLen size start length := by
    simp only [List.length_take, List.length_drop, hB, spanLen]
    omega
  have hread : ∀ k < spanLen size start length,
      m.read (start + k) = ((B.drop start).take (spanLen size start length))[k]? := by
    intro k hk
    obtain ⟨hlength, hsize⟩ : k < length ∧ k < size - start := lt_min_iff.1 hk
    rw [h _ (by omega) (by omega) (by omega), List.getElem?_take, if_pos hk, List.getElem?_drop]
  exact ⟨Memory.holds_of_read hL hread, Memory.slice_of_read hL hread⟩

theorem keepsBytes_of_buf {s t : State} (h : ∀ c, t.buf c = s.buf c) (stored : Space → Nat → Prop) :
    keepsBytes s t stored :=
  fun c i _ => by rw [h c]

/-- Settles O18: the slice that CRC16F reads is the range of `B`, cut at the end. -/
theorem crc16fResult : Obligations.Crc16fResult := by
  intro s b start length initial B _ hB hread
  obtain ⟨hholds, hslice⟩ := Memory.span_of_read hB hread
  have hcrca : (crc16fOn b start length initial s).crc.crca = crc16f B start length initial := by
    rw [crc16fOn_crca, hslice, crc16f_drop_take, crc16f_min B start length, hB, spanLen]
  exact ⟨crc16fOn b start length initial s, if_pos hholds, congrArg (CrcRegs.mk · s.crc.crcf) hcrca,
    ⟨crc16fOn_events .., crc16fOn_latches .., crc16fOn_status .., crc16fOn_orch ..⟩,
    keepsBytes_of_buf (fun c => crc16fOn_buf _ _ _ _ s c) _, crc16fOn_cipher .., crc16fOn_table ..,
    crc16fOn_subst .., crc16fOn_perm .., crc16fOn_temp .., crc16fOn_rev ..⟩

/-- Settles O23: the slice that CRC16R reads is the whole stream. -/
theorem crc16rResult : Obligations.Crc16rResult := by
  intro s B hB hread
  have hbytes : ∀ k < 11, (s.buf .stream).read (0 + k) = B[k]? := by simpa using hread
  have hcrc := crc16rOn_crc hB (Memory.slice_of_read hB hbytes)
  exact ⟨crc16rOn s, if_pos (Memory.holds_of_read hB hbytes), by rw [hcrc], by rw [hcrc, crc16r, hB],
    ⟨crc16rOn_events s, crc16rOn_latches s, crc16rOn_status s, crc16rOn_orch s⟩,
    keepsBytes_of_buf (crc16rOn_buf s) _, crc16rOn_cipher s, crc16rOn_table s, crc16rOn_subst s, crc16rOn_perm s,
    crc16rOn_temp s, crc16rOn_rev s⟩

/-! ### The CRC of the Deli16 builder -/

/-- Scratch bytes 16 to 26 after step 5, which the CRC covers (40_crc16.md R105). -/
def dlCrcField (s : State) : List Byte := ((dlScratch s).drop 16).take 11

theorem dlCrcField_eq (s : State) :
    dlCrcField s = dlCrcHead.map rev8 ++ dlPayload s.latches s.orch.cc s.orch.pb := rfl

/-- The three head bytes are reversed twice on its way into the stream, the payload once. -/
theorem dlStreamBytes_eq_map_rev8 (s : State) : dlStreamBytes s = (dlCrcField s).map rev8 := by
  rw [dlCrcField_eq, List.map_append, List.map_map, dlStreamBytes]
  simp [Function.comp_def]

theorem dlAssemble_stream_read (s : State) (k : Nat) : ((dlAssemble s).buf .stream).read k = (dlStreamBytes s)[k]? := by
  rw [dlAssemble_buf, if_neg (by decide), if_pos rfl, Memory.read_ofBytes, if_pos (Nat.zero_le k), Nat.sub_zero]

theorem dlAssemble_scratch_read (s : State) (k : Nat) : ((dlAssemble s).buf .scratch).read k = (dlScratch s)[k]? := by
  rw [dlAssemble_buf, if_neg (by decide), if_neg (by decide), if_pos rfl, Memory.read_ofBytes,
    if_pos (Nat.zero_le k), Nat.sub_zero]

theorem dlAssemble_scratch_read_crcField {k : Nat} (s : State) (hk : k < 11) :
    ((dlAssemble s).buf .scratch).read (16 + k) = (dlCrcField s)[k]? := by
  rw [dlAssemble_scratch_read, dlCrcField, List.getElem?_take, if_pos hk, List.getElem?_drop]

/-- Settles O44: the stream is the reversal of scratch bytes 16 to 26, so its CRC is their X-25. -/
theorem streamIsReversedScratch : Obligations.StreamIsReversedScratch := by
  intro s
  refine ⟨fun k hk => ?_, ⟨dlCrcField s, rfl, fun k hk => dlAssemble_scratch_read_crcField s hk, ?_⟩,
    fun i => ?_, ?_, ?_⟩
  · rw [dlAssemble_stream_read, dlAssemble_scratch_read_crcField s hk, dlStreamBytes_eq_map_rev8, List.getElem?_map]
  · rw [dlAssemble_crc, dlStreamBytes_eq_map_rev8, crc16r_map_rev8]
  · rw [dlAssemble_scratch_read, isSome_getElem?, length_dlScratch]
  · rw [dlAssemble_scratch_read, dlAssemble_crc]
    rfl
  · rw [dlAssemble_scratch_read, dlAssemble_crc]
    rfl

end Sys2Proof.Machine
end

section
/-! SUPPORT. The bit-reversal unit (41_bitrev.md): REV8 as `BitVec.reverse`, and the operation on the state. -/

namespace Sys2Proof.Machine

open Sys2Proof Sys2Proof.Claims

/-- R110, from the reading of REV8 as `BitVec.reverse`. -/
theorem getLsbD_rev8 (b : Byte) {i : Nat} (hi : i < 8) : (rev8 b).getLsbD (7 - i) = b.getLsbD i := by
  rw [rev8_eq_reverse, BitVec.getLsbD_reverse, BitVec.getMsbD]
  simp [show 7 - i < 8 by omega, show 7 - (7 - i) = i by omega]

/-- Settles O24: REV8 has no guard, and it writes `rev` and the loop counters alone. -/
theorem rev8Result : Obligations.Rev8Result := fun s b =>
  ⟨State.loopsDone { s with rev := rev8 b }, rfl, fun _ hi => getLsbD_rev8 b hi, ⟨rfl, rfl, rfl, rfl⟩,
    keepsBytes_of_buf (fun _ => rfl) _, rfl, rfl, rfl, rfl, rfl, rfl⟩

/-- Settles O25: reversed twice a byte is itself (R111), and an involution is a bijection. -/
theorem rev8Involution : Obligations.Rev8Involution :=
  ⟨rev8_rev8, Function.Involutive.bijective rev8_rev8⟩

end Sys2Proof.Machine
end

section
/-! SUPPORT. The cipher engine (42_cipher.md): storing a block and loading it undo each other, a round can be
undone, and what BLKENC and DTAB leave in the state. -/

namespace Sys2Proof.Machine

open Sys2Proof Sys2Proof.Claims Sys2Proof.Config

/-! ### Words and bytes -/

theorem extractLsb'_append_add {v w : Nat} (x : BitVec v) (y : BitVec w) (n len : Nat) :
    (x ++ y).extractLsb' (w + n) len = x.extractLsb' n len := by
  rw [BitVec.extractLsb'_append_eq_of_le (Nat.le_add_right w n), Nat.add_sub_cancel_left]

theorem extractLsb'_le32 (b0 b1 b2 b3 : Byte) :
    (le32 b0 b1 b2 b3).extractLsb' 0 8 = b0 ∧ (le32 b0 b1 b2 b3).extractLsb' 8 8 = b1 ∧
      (le32 b0 b1 b2 b3).extractLsb' 16 8 = b2 ∧ (le32 b0 b1 b2 b3).extractLsb' 24 8 = b3 := by
  have drop0 (n : Nat) : (le32 b0 b1 b2 b3).extractLsb' (8 + n) 8 = (b3 ++ b2 ++ b1).extractLsb' n 8 :=
    extractLsb'_append_add ..
  have drop1 (n : Nat) : (b3 ++ b2 ++ b1).extractLsb' (8 + n) 8 = (b3 ++ b2).extractLsb' n 8 :=
    extractLsb'_append_add ..
  refine ⟨BitVec.extractLsb'_append_eq_right, ?_, ?_, ?_⟩
  · exact (drop0 0).trans BitVec.extractLsb'_append_eq_right
  · exact (drop0 8).trans ((drop1 0).trans BitVec.extractLsb'_append_eq_right)
  · exact (drop0 16).trans ((drop1 8).trans BitVec.extractLsb'_append_eq_left)

theorem le32_extractLsb' (w : Word) :
    le32 (w.extractLsb' 0 8) (w.extractLsb' 8 8) (w.extractLsb' 16 8) (w.extractLsb' 24 8) = w := by
  rw [le32, BitVec.extractLsb'_append_extractLsb'_eq_extractLsb' (start₂ := 24) (start₁ := 16) (len₁ := 8) rfl,
    BitVec.extractLsb'_append_extractLsb'_eq_extractLsb' (start₂ := 16) (start₁ := 8) (len₁ := 8) rfl,
    BitVec.extractLsb'_append_extractLsb'_eq_extractLsb' (start₂ := 8) (start₁ := 0) (len₁ := 8) rfl]
  exact BitVec.extractLsb'_eq_self

theorem block_literal (B : Vector Byte 8) : #v[B[0], B[1], B[2], B[3], B[4], B[5], B[6], B[7]] = B := by
  ext1 i hi
  interval_cases i <;> rfl

theorem blocks_literal (A B : Vector Byte 8) :
    #v[A[0], A[1], A[2], A[3], A[4], A[5], A[6], A[7], B[0], B[1], B[2], B[3], B[4], B[5], B[6], B[7]] = A ++ B := by
  ext1 i hi
  rw [Vector.getElem_append]
  interval_cases i <;> rfl

/-! ### The block and its two words -/

theorem getElem_bytes (c : CipherRegs) {k : Nat} (hk : k < 4) :
    c.bytes[k] = c.v0.extractLsb' (8 * k) 8 ∧ c.bytes[4 + k] = c.v1.extractLsb' (8 * k) 8 := by
  interval_cases k <;> exact ⟨rfl, rfl⟩

/-- The load takes back the two words that the output stores. -/
theorem loadBlock_bytes (P : Params) (c : CipherRegs) :
    (loadBlock P c.bytes).v0 = c.v0 ∧ (loadBlock P c.bytes).v1 = c.v1 :=
  ⟨le32_extractLsb' c.v0, le32_extractLsb' c.v1⟩

/-- The output stores the eight bytes that the load takes. -/
theorem bytes_loadBlock (P : Params) (B : Vector Byte 8) : (loadBlock P B).bytes = B := by
  simp only [CipherRegs.bytes, loadBlock, extractLsb'_le32, block_literal]

/-! ### The rounds -/

theorem runBlock_eq (P : Params) (B : Vector Byte 8) : runBlock P B = cipherRound^[32] (loadBlock P B) := by
  unfold runBlock
  rfl

/-- `r` rounds lower SUM by `r` times DELTA and keep the key words (R117, R118). -/
theorem iterate_cipherRound (c : CipherRegs) (r : Nat) :
    cipherRound^[r] c =
      { c with
        v0 := (cipherRound^[r] c).v0
        v1 := (cipherRound^[r] c).v1
        sum := c.sum - BitVec.ofNat 32 r * delta } := by
  induction r with
  | zero => simp
  | succ r ih =>
    rw [Function.iterate_succ_apply', ih]
    have hsum : c.sum - BitVec.ofNat 32 r * delta - delta = c.sum - BitVec.ofNat 32 (r + 1) * delta := by
      rw [BitVec.ofNat_add, sub_sub, ← add_one_mul]
      rfl
    simp [cipherRound, hsum]

/-- Settles O27: the definitions of the load, the round and the output, and SUM and the key words after `r`
rounds. -/
theorem roundSumAndKeys : Obligations.RoundSumAndKeys := by
  refine ⟨fun P B => ⟨rfl, rfl⟩, fun c => ⟨rfl, rfl, rfl, rfl, rfl, rfl, rfl⟩, fun P B k => ?_, fun P B r => ?_⟩
  · rw [blkenc, ← runBlock_eq]
    exact getElem_bytes _ k.isLt
  · rw [iterate_cipherRound]
    exact ⟨rfl, rfl, rfl, rfl, rfl⟩

/-- One round taken back: SUM first, then `V0` from the new `V1`, then `V1` from the old `V0` (R117). -/
def undoRound (c : CipherRegs) : CipherRegs :=
  let sum := c.sum + delta
  let v0 := c.v0 + feistel c.v1 sum c.k0 c.k1
  { c with v0 := v0, v1 := c.v1 + feistel v0 sum c.k2 c.k3, sum := sum }

theorem undoRound_leftInverse : Function.LeftInverse undoRound cipherRound := fun c => by
  simp [undoRound, cipherRound]

/-- Two runs end in the same registers when they end in the same `V0` and `V1`: SUM and the key words do not
depend on the block. -/
theorem iterate_cipherRound_loadBlock_eq {P : Params} {A B : Vector Byte 8} {r : Nat}
    (h0 : (cipherRound^[r] (loadBlock P A)).v0 = (cipherRound^[r] (loadBlock P B)).v0)
    (h1 : (cipherRound^[r] (loadBlock P A)).v1 = (cipherRound^[r] (loadBlock P B)).v1) :
    cipherRound^[r] (loadBlock P A) = cipherRound^[r] (loadBlock P B) := by
  rw [iterate_cipherRound (loadBlock P A), iterate_cipherRound (loadBlock P B), h0, h1]
  rfl

/-- Settles O28: the output gives back `V0` and `V1`, hence all registers after the 32 rounds; each round can be
undone, and the load gives back the block. -/
theorem blkencInjective : Obligations.BlkencInjective := by
  intro P a b h
  rw [blkenc, blkenc, runBlock_eq, runBlock_eq] at h
  obtain ⟨ha0, ha1⟩ := loadBlock_bytes P (cipherRound^[32] (loadBlock P a))
  obtain ⟨hb0, hb1⟩ := loadBlock_bytes P (cipherRound^[32] (loadBlock P b))
  have hruns : cipherRound^[32] (loadBlock P a) = cipherRound^[32] (loadBlock P b) :=
    iterate_cipherRound_loadBlock_eq (by rw [← ha0, h, hb0]) (by rw [← ha1, h, hb1])
  have hloads : loadBlock P a = loadBlock P b := undoRound_leftInverse.injective.iterate 32 hruns
  rw [← bytes_loadBlock P a, hloads, bytes_loadBlock]

/-! ### BLKENC and DTAB on the state -/

theorem getElem_block (s : State) {k : Nat} (hk : k < 8) : s.block[k] = (s.buf .blk).get k := by
  interval_cases k <;> rfl

theorem block_of_read {s : State} {B : Vector Byte 8} (h : ∀ i : Fin 8, (s.buf .blk).read i = some B[i]) :
    s.block = B := by
  ext1 k hk
  rw [getElem_block s hk]
  exact Memory.get_of_read (h ⟨k, hk⟩)

@[simp] theorem blkencOf_cipher (P : Params) (B : Vector Byte 8) (s : State) :
    (blkencOf P B s).cipher = runBlock P B := rfl

theorem blkencOf_blk_read (P : Params) (B : Vector Byte 8) (s : State) {k : Nat} (hk : k < 8) :
    ((blkencOf P B s).buf .blk).read k = some (blkenc P B)[k] := by
  rw [blkencOf_buf, if_pos rfl, Memory.read_writeRange, if_pos (by simpa using hk)]
  simp [hk]

theorem blkencOf_keepsBytes (P : Params) (B : Vector Byte 8) (s : State) :
    keepsBytes s (blkencOf P B s) (fun c i => c = .blk ∧ i < 8) := by
  intro c i hout
  rw [blkencOf_buf]
  split_ifs with hc
  · subst hc
    rw [Memory.read_writeRange, if_neg (by simpa using hout)]
  · rfl

theorem keepsBytes_trans {s t u : State} {stored : Space → Nat → Prop} (h : keepsBytes s t stored)
    (h' : keepsBytes t u stored) : keepsBytes s u stored :=
  fun c i hout => (h' c i hout).trans (h c i hout)

/-- DTAB runs two block transforms through `BLK`, and both store its eight bytes alone. -/
theorem dtabOn_keepsBytes (P : Params) (s : State) :
    keepsBytes s (dtabOn P s) (fun c i => c = .blk ∧ i < 8) :=
  keepsBytes_trans (blkencOf_keepsBytes P (seedLow P) s) (blkencOf_keepsBytes P (seedHigh P) _)

/-- Settles O26: the guard holds, the block that BLKENC reads is `B`, and `BLK` is read back byte by byte. -/
theorem blkencResult : Obligations.BlkencResult := by
  intro s B hread
  have hholds : s.mem.blk.holds 0 8 = true :=
    (Memory.holds_iff _ _ _).2 fun k hk => by
      rw [Nat.zero_add]
      exact Option.isSome_iff_exists.2 ⟨_, hread ⟨k, hk⟩⟩
  refine ⟨blkencOf params B s, ?_, runBlock_eq params B, fun k hk => ?_,
    ⟨blkencOf_events .., blkencOf_latches .., blkencOf_status .., blkencOf_orch ..⟩, blkencOf_keepsBytes _ _ _,
    blkencOf_table .., blkencOf_crc .., blkencOf_subst .., blkencOf_perm .., blkencOf_temp .., blkencOf_rev ..⟩
  · rw [← block_of_read hread]
    exact if_pos hholds
  · obtain ⟨hlow, hhigh⟩ := getElem_bytes (runBlock params B) hk
    exact ⟨(blkencOf_blk_read params B s (by omega)).trans (congrArg some hlow),
      (blkencOf_blk_read params B s (by omega)).trans (congrArg some hhigh)⟩

theorem dtab_eq_append (P : Params) : dtab P = blkenc P (seedLow P) ++ blkenc P (seedHigh P) := blocks_literal _ _

theorem getElem_dtab (P : Params) {k : Nat} (hk : k < 8) :
    (dtab P)[k] = (blkenc P (seedLow P))[k] ∧ (dtab P)[8 + k] = (blkenc P (seedHigh P))[k] := by
  rw [dtab_eq_append]
  refine ⟨Vector.getElem_append_left hk, (Vector.getElem_append_right (by omega) (by omega)).trans ?_⟩
  simp only [Nat.add_sub_cancel_left]

theorem getElem_seed (P : Params) {k : Nat} (hk : k < 8) :
    (seedLow P)[k] = P.seed[k] ∧ (seedHigh P)[k] = P.seed[8 + k] := by
  interval_cases k <;> exact ⟨rfl, rfl⟩

/-- Settles O29: DTAB has no guard, its table is `dtab params`, and it writes through `BLK` alone. -/
theorem dtabResult : Obligations.DtabResult := fun s =>
  ⟨dtabOn params s, rfl, dtabOn_table .., fun i => getElem_dtab params i.isLt, fun i => getElem_seed params i.isLt,
    ⟨dtabOn_events .., dtabOn_latches .., dtabOn_status .., dtabOn_orch ..⟩, dtabOn_keepsBytes params s,
    dtabOn_crc .., dtabOn_subst .., dtabOn_perm .., dtabOn_temp .., dtabOn_rev ..⟩

end Sys2Proof.Machine
end

section
/-! SUPPORT. The substitution engine (43_subst_xor.md): the byte of one position, the loop as a function on bytes,
and what OBF leaves in the state. -/

namespace Sys2Proof.Machine

open Sys2Proof Sys2Proof.Claims Sys2Proof.Config

/-! ### The selector and the byte of one position -/

/-- Settles O32: the selector byte enters its definition through the XOR of its nibbles alone. -/
theorem selectorByNibbleXor : Obligations.SelectorByNibbleXor := fun T _ _ h => congrArg (tableAt T) h

/-- The additive index wraps modulo 16 (R130). -/
theorem tableAt_ofNat (T : Vector Byte 16) (n : Nat) :
    tableAt T (BitVec.ofNat 4 n) = T[n % 16]'(Nat.mod_lt _ (by decide)) := rfl

/-- R129: XOR with a constant and addition of a constant are both injective. -/
theorem obfByte_injective (T : Vector Byte 16) (obp key : Byte) (j : Nat) :
    Function.Injective (obfByte T obp key j) := fun _ _ h =>
  (BitVec.xor_left_inj obp).1 (add_right_cancel h)

/-! ### The loop as a function on bytes -/

/-- Settles O33: each position's byte, in range or not, gives back the byte it came from. -/
theorem obfLoopInjective : Obligations.ObfLoopInjective := by
  refine fun T obp key start length B C => ⟨length_obfLoop .., fun _ h => List.ext_getElem? fun p => ?_⟩
  have hp : (obfLoop T obp key start length B)[p]? = (obfLoop T obp key start length C)[p]? := by rw [h]
  rw [getElem?_obfLoop, getElem?_obfLoop] at hp
  split_ifs at hp with hrange
  · exact Option.map_injective (obfByte_injective T obp key (p - start)) hp
  · exact hp

/-- Settles O60: `obf` asks for the selector byte, then runs the loop. -/
theorem obfPositions : Obligations.ObfPositions := by
  refine fun T B start length key => ⟨fun hout => ?_, fun ob hob => ?_⟩
  · rw [obf, List.getElem?_eq_none hout]
  · refine ⟨obfLoop T (selectorByte T ob) key start length B, by rw [obf, hob], length_obfLoop .., fun p => ?_⟩
    rw [getElem?_obfLoop]
    split_ifs
    · rfl
    · exact Option.map_id'.symm

/-! ### OBF on the state -/

/-- Settles O31: the first guard of OBF. -/
theorem obfSelectorOutsideRefused : Obligations.ObfSelectorOutsideRefused :=
  fun _ _ _ _ _ hout => if_pos hout

theorem execObf_next {s : State} {b : Space} {start length : Nat} {key : Byte} (hsel : start + 1 < bufSize b)
    (hone : (s.buf b).holds (start + 1) 1 = true)
    (hspan : (s.buf b).holds start (spanLen (bufSize b) start length) = true) :
    execObf b start length key s = .next (obfOn params b start length key s) := by
  rw [execObf, if_neg (Nat.not_le_of_lt hsel), hone, hspan]
  rfl

theorem Memory.getElem?_slice_of_holds {m : Memory} {start n k : Nat} (h : m.holds start n = true) (hk : k < n) :
    (m.slice start n)[k]? = m.read (start + k) := by
  obtain ⟨v, hv⟩ := Option.isSome_iff_exists.1 ((Memory.holds_iff m start n).1 h k hk)
  rw [Memory.getElem?_slice, if_pos hk, Memory.get_of_read hv, hv]

theorem dtabOn_buf_of_ne (P : Params) (s : State) {c : Space} (hc : c ≠ .blk) : (dtabOn P s).buf c = s.buf c := by
  rw [dtabOn_buf, if_neg hc]

/-- R126: the selector registers come from the byte that `start + 1` held before the loop. -/
theorem obfOn_subst_of_read {P : Params} {b : Space} {start : Nat} {s : State} {ob : Byte} (hb : b ≠ .blk)
    (hob : (s.buf b).read (start + 1) = some ob) (length : Nat) (key : Byte) :
    (obfOn P b start length key s).subst = { ob := ob, oi := selectorIndex ob, obp := selectorByte (dtab P) ob } := by
  rw [obfOn_subst, dtabOn_buf_of_ne P s hb, Memory.get_of_read hob]

/-- OBF byte by byte: the positions in range and inside the buffer take their new byte, the others keep theirs. -/
theorem obfOn_read {P : Params} {b : Space} {start length : Nat} {key : Byte} {s : State} (hb : b ≠ .blk)
    (hspan : (s.buf b).holds start (spanLen (bufSize b) start length) = true) (p : Nat) :
    ((obfOn P b start length key s).buf b).read p =
      if start ≤ p ∧ p < start + length ∧ p < bufSize b then
        ((s.buf b).read p).map (obfByte (dtab P) (obfOn P b start length key s).subst.obp key (p - start))
      else (s.buf b).read p := by
  have hiff : start ≤ p ∧ p < start + spanLen (bufSize b) start length ↔
      start ≤ p ∧ p < start + length ∧ p < bufSize b := by unfold spanLen; omega
  rw [obfOn_buf, if_pos rfl, obfOn_subst, dtabOn_buf_of_ne P s hb, Memory.read_writeRange, length_obfLoop,
    Memory.length_slice]
  refine ite_congr (propext hiff) (fun hp => ?_) fun _ => rfl
  obtain ⟨hlo, hhi⟩ := hiff.2 hp
  rw [getElem?_obfLoop, if_pos (by omega), Memory.getElem?_slice_of_holds hspan (by omega),
    Nat.add_sub_cancel' hlo, Nat.sub_zero]

theorem obfOn_keepsBytes {b : Space} {start length : Nat} {s : State} (P : Params) (key : Byte) (hb : b ≠ .blk)
    (hspan : (s.buf b).holds start (spanLen (bufSize b) start length) = true) :
    keepsBytes s (obfOn P b start length key s)
      (fun c i => (c = b ∧ start ≤ i ∧ i < start + length ∧ i < bufSize b) ∨ (c = .blk ∧ i < 8)) := by
  intro c i hout
  obtain ⟨hrange, hblk⟩ := not_or.1 hout
  by_cases hc : c = b
  · subst hc
    rw [obfOn_read hb hspan, if_neg fun hp => hrange ⟨rfl, hp⟩]
  · rw [obfOn_buf, if_neg hc]
    exact dtabOn_keepsBytes P s c i hblk

/-- Settles O30: both guards hold, and the result is read back register by register and byte by byte. -/
theorem obfResult : Obligations.ObfResult := by
  intro s b start length key hwf hsel hread
  have hb : b ≠ .blk := by
    rw [(obfWrites_iff b).1 hwf]
    decide
  have hone : (s.buf b).holds (start + 1) 1 = true :=
    (Memory.holds_iff _ _ _).2 fun k hk => hread _ (.inr (by omega)) (by omega)
  have hspan : (s.buf b).holds start (spanLen (bufSize b) start length) = true :=
    (Memory.holds_iff _ _ _).2 fun k hk => by
      obtain ⟨hlength, hsize⟩ : k < length ∧ k < bufSize b - start := lt_min_iff.1 hk
      exact hread _ (.inl (by omega)) (by omega)
  obtain ⟨ob, hob⟩ := Option.isSome_iff_exists.1 (hread (start + 1) (.inr rfl) hsel)
  have hsubst := obfOn_subst_of_read (P := params) hb hob length key
  refine ⟨obfOn params b start length key s, ob, execObf_next hsel hone hspan, hob, obfOn_table ..,
    by rw [hsubst], by rw [hsubst]; rfl, by rw [hsubst]; rfl, fun j old hj hsize hold => ?_,
    obfOn_keepsBytes params key hb hspan, ⟨obfOn_events .., obfOn_latches .., obfOn_status .., obfOn_orch ..⟩,
    obfOn_crc .., obfOn_perm .., obfOn_temp .., obfOn_rev ..⟩
  rw [obfOn_read hb hspan, if_pos (by omega), hold, Nat.add_sub_cancel_left, Option.map_some, obfByte, tableAt_ofNat]

end Sys2Proof.Machine
end

section
/-! SUPPORT. The permutation engine (44_bitperm.md): the fold over the bit positions, PERM as a mask on bytes (R140),
and what PERM leaves in the state. -/

namespace Sys2Proof.Machine

open Sys2Proof Sys2Proof.Claims Sys2Proof.Config

/-! ### The open parameters -/

theorem extractLsb'_and_lowMask (key : Byte) : (key &&& 0x3F).extractLsb' 0 6 = key.extractLsb' 0 6 := by
  rw [BitVec.extractLsb'_and]
  exact BitVec.and_allOnes

theorem bitSeq_perm (P : Params) : (bitSeq P).Perm (List.finRange 8) := P.bitSeq.map_finRange_perm

/-- Settles O34: PK_INIT takes the low six bits and appends a 1, and PERM_BITSEQ is a permutation. -/
theorem permParameterConstraints : Obligations.PermParameterConstraints := fun P =>
  ⟨fun key => ⟨by rw [pkInit, pkInit, extractLsb'_and_lowMask], by rw [pkInit, BitVec.getLsbD_append]; rfl⟩,
    bitSeq_perm P⟩

theorem nodup_bitSeq (P : Params) : (bitSeq P).Nodup := (bitSeq_perm P).nodup_iff.2 (List.nodup_finRange 8)

theorem mem_bitSeq (P : Params) (m : Fin 8) : m ∈ bitSeq P := (bitSeq_perm P).mem_iff.2 (List.mem_finRange m)

/-- The place at which PERM_BITSEQ visits a position. -/
theorem idxOf_bitSeq (P : Params) (m : Fin 8) : (bitSeq P).idxOf m = P.bitSeq.symm m := by
  have hplace : (· == m) ∘ P.bitSeq = (· == P.bitSeq.symm m) := by
    funext i
    simp [Equiv.eq_symm_apply]
  rw [bitSeq, List.idxOf, List.findIdx_map, hplace]
  exact List.idxOf_finRange _

/-! ### The byte of one position -/

/-- A step ORs one bit into the accumulator: bit `m` of the byte XORed with bit 6 of the processed key. -/
theorem getLsbD_acc_permBit (P : Params) (b : Byte) (r : PermRegs) (m k : Fin 8) :
    (permBit P b r m).acc.getLsbD k =
      (r.acc.getLsbD k || (decide (k = m) && (b.getLsbD k ^^ r.pk.getLsbD 6))) := by
  have hmask : (1#8 <<< m.val).getLsbD k = decide (k = m) := by
    rw [← BitVec.twoPow_eq, BitVec.getLsbD_twoPow]
    simp [Fin.ext_iff, eq_comm]
  rw [permBit, BitVec.getLsbD_or, BitVec.getLsbD_and, hmask, BitVec.getLsbD_xor, Bool.and_comm]
  by_cases h : k = m
  · subst h
    simp [Bool.xor_comm]
  · simp [h]

/-- The fold over distinct positions: each visited position gets its bit under the processed key of its place, and
the others keep theirs (R135, R138). -/
theorem getLsbD_acc_foldl_permBit (P : Params) (b : Byte) {ms : List (Fin 8)} (hms : ms.Nodup) (r : PermRegs)
    (k : Fin 8) :
    (ms.foldl (permBit P b) r).acc.getLsbD k =
      (r.acc.getLsbD k || (decide (k ∈ ms) && (b.getLsbD k ^^ (P.pkStep^[ms.idxOf k] r.pk).getLsbD 6))) := by
  induction ms generalizing r with
  | nil => simp
  | cons m ms ih =>
    obtain ⟨hm, hms⟩ := List.nodup_cons.1 hms
    have hpk : (permBit P b r m).pk = P.pkStep r.pk := rfl
    rw [List.foldl_cons, ih hms, getLsbD_acc_permBit, hpk]
    by_cases hk : k = m
    · subst hk
      simp [hm]
    · rw [List.idxOf_cons_ne _ (Ne.symm hk), Function.iterate_succ_apply]
      simp [hk]

theorem getLsbD_keyStream (P : Params) (key : Byte) (p : Nat) (m : Fin 8) :
    (keyStream P key p).getLsbD m = keyBit P key (8 * p + (P.bitSeq.symm m).val) := by
  simp [keyStream]

/-- At the processed key of position `p`, the byte is XORed with its key-stream byte. -/
theorem acc_permByte (P : Params) (key : Byte) (p : Nat) (b : Byte) :
    (permByte P (P.pkStep^[8 * p] (pkInit P key)) b).acc = b ^^^ keyStream P key p := by
  refine BitVec.eq_of_getLsbD_eq fun i hi => ?_
  obtain ⟨m, rfl⟩ : ∃ m : Fin 8, m.val = i := ⟨⟨i, hi⟩, rfl⟩
  rw [permByte, getLsbD_acc_foldl_permBit P b (nodup_bitSeq P), idxOf_bitSeq, ← Function.iterate_add_apply,
    BitVec.getLsbD_xor, getLsbD_keyStream, keyBit, Nat.add_comm]
  simp [mem_bitSeq]

/-! ### PERM as a mask -/

/-- Consecutive bytes from position `p` on, under the processed key of position `p`. -/
theorem getElem?_permBytes (P : Params) (key : Byte) (bs : List Byte) (p k : Nat) :
    (permBytes P (P.pkStep^[8 * p] (pkInit P key)) bs)[k]? = (bs[k]?).map (· ^^^ keyStream P key (p + k)) := by
  induction bs generalizing p k with
  | nil => rfl
  | cons b bs ih =>
    have hpk : P.pkStep^[8] (P.pkStep^[8 * p] (pkInit P key)) = P.pkStep^[8 * (p + 1)] (pkInit P key) := by
      rw [← Function.iterate_add_apply, Nat.add_comm, Nat.mul_succ]
    rw [permBytes, acc_permByte, pk_permByte, hpk]
    cases k with
    | zero => rfl
    | succ k => rw [List.getElem?_cons_succ, List.getElem?_cons_succ, ih, Nat.add_right_comm, Nat.add_assoc]

theorem getElem?_permBytes_pkInit (P : Params) (key : Byte) (bs : List Byte) (k : Nat) :
    (permBytes P (pkInit P key) bs)[k]? = (bs[k]?).map (· ^^^ keyStream P key k) := by
  simpa using getElem?_permBytes P key bs 0 k

/-- What PERM XORs into position `p`: the key-stream byte below `length`, nothing from there on. -/
def permMask (P : Params) (length : Nat) (key : Byte) (p : Nat) : Byte :=
  if p < length then keyStream P key p else 0

theorem getElem?_perm (P : Params) (B : List Byte) (length : Nat) (key : Byte) (p : Nat) :
    (perm P B length key)[p]? = (B[p]?).map (· ^^^ permMask P length key p) := by
  rcases Nat.lt_or_ge p B.length with hB | hB
  · rw [perm, List.getElem?_append, length_permBytes, List.length_take, permMask]
    split_ifs with hin hp hp
    · rw [getElem?_permBytes_pkInit, List.getElem?_take_of_lt hp]
    · omega
    · omega
    · rw [List.getElem?_drop, show length + (p - min length B.length) = p by omega]
      simp
  · simp [hB]

/-- Settles O35: the mask at a position below `length` is the key-stream byte, and 0 from there on. -/
theorem permIsKeyStreamMask : Obligations.PermIsKeyStreamMask := by
  intro P B length key p
  rw [getElem?_perm, permMask]
  split_ifs
  · rfl
  · simp

/-- Settles O38: a mask applied twice cancels, and below `n` both masks are the key stream. -/
theorem permTwiceRestores : Obligations.PermTwiceRestores := by
  refine fun P B n k key => ⟨List.ext_getElem? fun p => ?_, List.ext_getElem? fun p => ?_⟩
  · rw [getElem?_perm, getElem?_perm, Option.map_map]
    simp [Function.comp_def]
  · rw [List.getElem?_take, List.getElem?_take]
    split_ifs with hp
    · rw [getElem?_perm, getElem?_perm, permMask, permMask, if_pos hp, if_pos (by omega)]
    · rfl

/-- PERM on the bytes from `start` on masks each of them at its own place in that part of the list. -/
theorem getElem?_take_append_perm_drop (P : Params) {B : List Byte} {start : Nat} (hB : start ≤ B.length)
    (length : Nat) (key : Byte) (p : Nat) :
    (B.take start ++ perm P (B.drop start) length key)[p]? =
      (B[p]?).map (· ^^^ if p < start then 0 else permMask P length key (p - start)) := by
  rw [List.getElem?_append, List.length_take, Nat.min_eq_left hB]
  split_ifs with hp
  · rw [List.getElem?_take_of_lt hp]
    simp
  · rw [getElem?_perm, List.getElem?_drop, Nat.add_sub_of_le (Nat.le_of_not_lt hp)]

/-- Settles O37: both passes are masks that do not depend on the bytes, so their order does not matter. -/
theorem permPassesCommute : Obligations.PermPassesCommute := by
  intro P S hS
  refine List.ext_getElem? fun p => ?_
  rw [getElem?_perm, getElem?_take_append_perm_drop P (by omega),
    getElem?_take_append_perm_drop P (by rw [length_perm]; omega), getElem?_perm, Option.map_map, Option.map_map]
  refine Option.map_congr fun b _ => ?_
  simp only [Function.comp_apply, BitVec.xor_assoc]
  rw [BitVec.xor_comm (permMask _ _ _ _)]

/-! ### PERM on the state -/

/-- PERM byte by byte: the positions in range and inside the buffer are masked, the others keep their byte. -/
theorem permOn_read {P : Params} {b : Space} {length : Nat} {s : State} (key : Byte)
    (hspan : (s.buf b).holds 0 (spanLen (bufSize b) 0 length) = true) (p : Nat) :
    ((permOn P b length key s).buf b).read p =
      if p < length ∧ p < bufSize b then ((s.buf b).read p).map (· ^^^ keyStream P key p)
      else (s.buf b).read p := by
  have hiff : 0 ≤ p ∧ p < 0 + spanLen (bufSize b) 0 length ↔ p < length ∧ p < bufSize b := by
    unfold spanLen
    omega
  rw [permOn_buf, if_pos rfl, Memory.read_writeRange, length_permBytes, Memory.length_slice]
  refine ite_congr (propext hiff) (fun hp => ?_) fun _ => rfl
  obtain ⟨-, hlt⟩ := hiff.2 hp
  rw [getElem?_permBytes_pkInit, Memory.getElem?_slice_of_holds hspan (by omega), Nat.zero_add, Nat.sub_zero]

theorem permOn_keepsBytes {P : Params} {b : Space} {length : Nat} {s : State} (key : Byte)
    (hspan : (s.buf b).holds 0 (spanLen (bufSize b) 0 length) = true) :
    keepsBytes s (permOn P b length key s) (fun c i => c = b ∧ i < length ∧ i < bufSize b) := by
  intro c i hout
  by_cases hc : c = b
  · subst hc
    rw [permOn_read key hspan, if_neg fun hp => hout ⟨rfl, hp⟩]
  · rw [permOn_buf, if_neg hc]

/-- Settles O36: the guard holds, and the buffer is read back byte by byte. -/
theorem permResult : Obligations.PermResult := by
  intro s b length key _ hread
  have hspan : (s.buf b).holds 0 (spanLen (bufSize b) 0 length) = true :=
    (Memory.holds_iff _ _ _).2 fun k hk => by
      obtain ⟨hlength, hsize⟩ : k < length ∧ k < bufSize b - 0 := lt_min_iff.1 hk
      exact hread _ (by omega) (by omega)
  exact ⟨permOn params b length key s, if_pos hspan,
    fun i hlength hsize => (permOn_read key hspan i).trans (if_pos ⟨hlength, hsize⟩), permOn_keepsBytes key hspan,
    ⟨permOn_events .., permOn_latches .., permOn_status .., permOn_orch ..⟩, permOn_cipher .., permOn_table ..,
    permOn_crc .., permOn_subst .., permOn_temp .., permOn_rev ..⟩

end Sys2Proof.Machine
end

section
/-! SUPPORT. The HF frame builder (45_hf_builder.md): the core after each of the five steps, what the frame depends
on, and the fixed bytes of both frames. -/

namespace Sys2Proof.Machine

open Sys2Proof Sys2Proof.Claims Sys2Proof.Config

/-! ### Buffers that are filled whole -/

theorem holdsBytes_of_buf {s : State} {b : Space} {B : List Byte} (h : s.buf b = Memory.ofBytes 0 B) :
    holdsBytes s b B := fun i => by
  rw [h, Memory.read_ofBytes, if_pos (Nat.zero_le i), Nat.sub_zero]

theorem isSome_read_of_holdsBytes {s : State} {b : Space} {B : List Byte} (h : holdsBytes s b B) (i : Nat) :
    ((s.buf b).read i).isSome = true ↔ i < B.length := by
  rw [h, isSome_getElem?]

/-- A write of consecutive bytes to one buffer keeps every byte outside its range. -/
theorem keepsBytes_of_writeRange {s t : State} {b : Space} {start : Nat} {bs : List Byte}
    {stored : Space → Nat → Prop}
    (hbuf : ∀ c, t.buf c = if c = b then (s.buf b).writeRange start bs else s.buf c)
    (hstored : ∀ i, start ≤ i ∧ i < start + bs.length → stored b i) : keepsBytes s t stored := by
  intro c i hout
  rw [hbuf]
  split_ifs with hc
  · subst hc
    rw [Memory.read_writeRange, if_neg fun hi => hout (hstored i hi)]
  · rfl

/-! ### The core, step by step -/

/-- Settles O40: step 1 fills HFCORE with the loaded bytes and nothing else. -/
theorem hfLoadBytes : Obligations.HfLoadBytes := fun s => holdsBytes_of_buf (hfLoad_buf s .hfcore)

theorem hfParamRegion_of_isPair (P : Params) {s : State} (h : s.orch.isPair = true) :
    hfParamRegion P s = s.setBuf .hfcore ((s.buf .hfcore).writeRange 11 pairMarker) := if_pos h

theorem hfParamRegion_hfLoad_holdsBytes (P : Params) (s : State) :
    holdsBytes (hfParamRegion P (hfLoad s)) .hfcore (hfCoreParam P s) :=
  holdsBytes_of_buf (hfParamRegion_hfLoad_buf P s .hfcore)

/-- Settles O41: with IS_PAIR step 2 is the write of the marker alone, and HFCORE reads as `hfCoreParam`. -/
theorem pairMarkerReplacesFirstPass : Obligations.PairMarkerReplacesFirstPass := by
  intro P s hpair
  have hread := hfParamRegion_hfLoad_holdsBytes P s
  rw [hfCoreParam_pair hpair] at hread
  have hstep := hfParamRegion_of_isPair P (s := hfLoad s) hpair
  refine ⟨hread 11, hread 12, hread 13, hread 9, hread 10, ?_, ?_, ?_, ?_⟩
  · rw [hstep]
    exact keepsBytes_of_writeRange (fun c => State.buf_setBuf ..)
      fun i ⟨hlo, hhi⟩ => ⟨rfl, hlo, Nat.le_of_lt_succ hhi⟩
  all_goals rw [hstep]; rfl

/-- Settles O42: the slice that step 3 takes the CRC of is `B`, and the two bytes it writes are the field. -/
theorem hfCrcFieldRecomputes : Obligations.HfCrcFieldRecomputes := by
  intro s B hB hread
  have hslice : (s.buf .hfcore).slice 0 13 = B := Memory.slice_of_read hB (by simpa using hread)
  have hbuf := hfCheck_buf hB hslice
  have hcore := fun i => (congrArg (Memory.read · i) (hbuf .hfcore)).trans (Memory.read_writeRange ..)
  refine ⟨hcore 14, hcore 15, keepsBytes_of_writeRange hbuf fun i ⟨hlo, hhi⟩ => ⟨rfl, ?_⟩⟩
  simp only [List.length_cons, List.length_nil] at hhi
  omega

/-- The bytes of `hfCoreParam` and `hfCoreFinal` are those of R150 to R155. -/
theorem hfCoreIs_hfCoreFinal (s : State) :
    hfCoreIs s.latches s.orch.isPair s.orch.cc s.orch.pb (hfCoreParam params s) (hfCoreFinal params s) := by
  refine ⟨?_, obf_hfCoreChecked params s⟩
  split_ifs with hpair
  · exact hfCoreParam_pair hpair
  · exact obf_hfLoaded hpair

theorem hfbuild_hfcore (P : Params) (s : State) : (hfbuild P s).buf .hfcore = Memory.ofBytes 0 (hfCoreFinal P s) :=
  hfbuild_buf P s .hfcore

theorem hfbuild_hfout (P : Params) (s : State) :
    (hfbuild P s).buf .hfout = Memory.ofBytes 0 (hfFrame (hfCoreFinal P s)) :=
  hfbuild_buf P s .hfout

theorem hfbuild_keepsBytes (P : Params) (s : State) :
    keepsBytes s (hfbuild P s) (fun c _ => c = .hfcore ∨ c = .hfout ∨ c = .blk) := by
  intro c i hout
  obtain ⟨hcore, hframe, hblk⟩ : c ≠ .hfcore ∧ c ≠ .hfout ∧ c ≠ .blk := by simpa using hout
  rw [hfbuild_buf, if_neg hframe, if_neg hcore, if_neg hblk]

/-- Settles O39: HFBUILD has no guard, and each part of what it leaves is read back by its lemma. -/
theorem hfbuildResult : Obligations.HfbuildResult := fun s =>
  ⟨hfbuild params s, hfCoreParam params s, hfCoreFinal params s, rfl, hfCoreIs_hfCoreFinal s,
    length_hfCoreFinal params s, hfbuild_crc params s, holdsBytes_of_buf (hfbuild_hfcore params s),
    holdsBytes_of_buf (hfbuild_hfout params s), hfbuild_keepsBytes params s,
    ⟨hfbuild_events .., hfbuild_latches .., hfbuild_status .., hfbuild_orch ..⟩,
    hfbuild_perm .., hfbuild_temp .., hfbuild_rev ..⟩

/-! ### What the frame depends on -/

/-- The mask of R151 keeps the high nibble. -/
theorem and_highMask (b : Byte) : b &&& 0xF0 = b.extractLsb' 4 4 ++ 0#4 :=
  calc b &&& 0xF0
    _ = (b.extractLsb' 4 4 ++ b.extractLsb' 0 4) &&& (BitVec.allOnes 4 ++ 0#4) := by
      rw [BitVec.extractLsb'_append_extractLsb']
      rfl
    _ = b.extractLsb' 4 4 ++ 0#4 := by rw [BitVec.and_append, BitVec.and_allOnes, BitVec.and_zero]

/-- Bytes 0 to 10 of the loaded core come from the random byte, the low counter byte, the identity and CC. -/
theorem hfLoaded_take_congr {l l' : Latches} {cc cc' : Byte} {pb pb' : Vector Byte 3} (hrnd : l.rnd = l'.rnd)
    (hctr : low8 l.counter = low8 l'.counter) (hid0 : l.ident[0] = l'.ident[0])
    (hid1 : l.ident[1].extractLsb' 4 4 = l'.ident[1].extractLsb' 4 4) (hcc : cc = cc') :
    (hfLoaded l cc pb).take 11 = (hfLoaded l' cc' pb').take 11 := by
  simp only [hfLoaded, List.take_succ_cons, List.take_zero, and_highMask, hrnd, hctr, hid0, hid1, hcc]

theorem hfLoaded_eq_take_append (l : Latches) (cc : Byte) (pb : Vector Byte 3) :
    hfLoaded l cc pb = (hfLoaded l cc pb).take 11 ++ [pb[0], pb[1], pb[2]] := rfl

/-- The core after step 2 is decided by the flag, the loaded bytes 0 to 10, and without the flag the block. -/
theorem hfCoreParam_congr {P : Params} {s t : State} (hpair : s.orch.isPair = t.orch.isPair)
    (hhead : (hfLoaded s.latches s.orch.cc s.orch.pb).take 11 = (hfLoaded t.latches t.orch.cc t.orch.pb).take 11)
    (hpb : s.orch.isPair ≠ true → s.orch.pb = t.orch.pb) : hfCoreParam P s = hfCoreParam P t := by
  unfold hfCoreParam
  rw [← hpair]
  split_ifs with h
  · rw [hhead]
  · rw [hfLoaded_eq_take_append s.latches, hhead, hpb h, ← hfLoaded_eq_take_append]

theorem prepared_isPair (P : Params) (c : Command) (s : State) :
    (prepared P c s).orch.isPair = isPairFlag (controlCode P c) := by rw [prepared_orch]

theorem prepared_cc (P : Params) (c : Command) (s : State) : (prepared P c s).orch.cc = controlCode P c := by
  rw [prepared_orch]

theorem prepared_pb (P : Params) (c : Command) (s : State) :
    (prepared P c s).orch.pb = blockOf c s.latches.param := by
  rw [prepared_orch, blockOf]

theorem isPairFlag_iff (cc : Byte) : isPairFlag cc = true ↔ cc = 0xB4 := beq_iff_eq

/-- Settles O52: the frame is that of `hfCoreParam`, whose inputs are those of R157. -/
theorem hfFrameDependence : Obligations.HfFrameDependence := by
  intro c c' o o' s s' t t' ht ht' hcc hpb hctr hid0 hid1 hrnd i
  rw [exec_instr] at ht ht'
  cases ht
  cases ht'
  have hcore : hfCoreParam params (prepared params c (acceptRequest ⟨c.code, o⟩ s)) =
      hfCoreParam params (prepared params c' (acceptRequest ⟨c'.code, o'⟩ s')) := by
    refine hfCoreParam_congr ?_ (hfLoaded_take_congr hrnd hctr hid0 hid1 ?_) fun hpair => ?_
    · rw [prepared_isPair, prepared_isPair, hcc]
    · rw [prepared_cc, prepared_cc, hcc]
    · rw [prepared_isPair, ne_eq, isPairFlag_iff] at hpair
      rw [prepared_pb, prepared_pb]
      exact hpb hpair
  rw [runCommand_hfout, runCommand_hfout, hfCoreFinal_congr hcore]

/-! ### The fixed bytes -/

/-- Settles O50: both frames are filled whole, and `framesWhole` names the fixed bytes. -/
theorem frameFixedBytes : Obligations.FrameFixedBytes := by
  intro P c s
  obtain ⟨-, hhead, htail, -, hfiller⟩ := runCommand_framesWhole P c s
  refine ⟨fun i => ?_, fun i => ?_, hhead, htail, hfiller⟩
  · rw [isSome_read_of_holdsBytes (holdsBytes_of_buf (runCommand_hfout P c s))]
    simp [hfFrameHead, hfFrameTail]
  · rw [isSome_read_of_holdsBytes (holdsBytes_of_buf (runCommand_dlout P c s))]
    simp [dlFiller]

end Sys2Proof.Machine
end

section
/-! SUPPORT. The Deli16 frame builder (46_deli16_builder.md): the scratch bytes under both permutation passes, the
frame as the closed form of R176, and what the frame depends on. -/

namespace Sys2Proof.Machine

open Sys2Proof Sys2Proof.Claims Sys2Proof.Config

/-! ### The bytes that the frame shows -/

theorem dlStreamBytes_eq_deliStream (s : State) :
    dlStreamBytes s = deliStream (deliPayload s.latches s.orch.cc s.orch.pb) := rfl

/-- Scratch bytes 13 to 18 before both passes: the marker and the CRC head, reversed (R169, R170). -/
def deliHead : List Byte := [0x8E, 0xF0, 0xAA, 0x33, 0xAA, 0x55]

/-- Scratch bytes 13 to 28 before both passes: the head, the payload, its CRC (R169 to R171). -/
def deliField (payload : List Byte) : List Byte :=
  deliHead ++ payload ++ [low8 (crc16r (deliStream payload)), high8 (crc16r (deliStream payload))]

/-- Scratch byte `13 + i` under both passes: the first pass, on the copy of bytes 16 to 28, is at place `i - 3`, and
the second, on the whole buffer, at place `13 + i` (R172, R173). -/
def dlMasked (P : Params) (i : Nat) (b : Byte) : Byte :=
  b ^^^ (if i < 3 then 0 else keyStream P 63 (i - 3)) ^^^ keyStream P 37 (13 + i)

theorem dlScratch_drop (s : State) :
    (dlScratch s).drop 13 = deliField (deliPayload s.latches s.orch.cc s.orch.pb) := rfl

theorem deliFrame_eq (payload : List Byte) :
    deliFrame payload =
      (List.range 16).map (fun i => dlMasked params i ((deliField payload).getD i 0)) ++ dlFiller := rfl

theorem getElem?_dlScratchSecond (P : Params) (s : State) {i : Nat} (hi : i < 16) :
    (dlScratchSecond P s)[13 + i]? = ((dlScratch s)[13 + i]?).map (dlMasked P i) := by
  have hfirst : (if 13 + i < 16 then 0 else permMask P 13 63 (13 + i - 16)) =
      if i < 3 then 0 else keyStream P 63 (i - 3) := by
    refine ite_congr (propext (by omega)) (fun _ => rfl) fun hlo => ?_
    rw [permMask, if_pos (by omega), show 13 + i - 16 = i - 3 by omega]
  have hsecond : permMask P 29 37 (13 + i) = keyStream P 37 (13 + i) := if_pos (by omega)
  rw [dlScratchSecond, getElem?_perm, dlScratchFirst, getElem?_take_append_perm_drop P (by simp), Option.map_map,
    hfirst, hsecond]
  rfl

theorem getElem?_dlScratch {s : State} {i : Nat} (hi : i < 16) :
    (dlScratch s)[13 + i]? = some ((deliField (deliPayload s.latches s.orch.cc s.orch.pb)).getD i 0) := by
  have hlen : i < (deliField (deliPayload s.latches s.orch.cc s.orch.pb)).length := hi
  rw [← List.getElem?_drop, dlScratch_drop, List.getElem?_eq_getElem hlen, List.getD_eq_getElem _ _ hlen]

/-- The 16 scratch bytes that step 8 copies and the filler are the frame of R176. -/
theorem dlFrame_eq_deliFrame (s : State) :
    ((dlScratchSecond params s).drop 13).take 16 ++ dlFiller =
      deliFrame (deliPayload s.latches s.orch.cc s.orch.pb) := by
  rw [deliFrame_eq]
  refine congrArg (· ++ dlFiller) (List.ext_getElem? fun i => ?_)
  rw [List.getElem?_take, List.getElem?_drop, List.getElem?_map]
  split_ifs with hi
  · rw [getElem?_dlScratchSecond params s hi, getElem?_dlScratch hi, List.getElem?_range hi, Option.map_some,
      Option.map_some]
  · rw [List.getElem?_eq_none (by simpa using hi), Option.map_none]

/-! ### DLBUILD on the state -/

theorem dlbuild_dlout (s : State) :
    (dlbuild params s).buf .dlout = Memory.ofBytes 0 (deliFrame (deliPayload s.latches s.orch.cc s.orch.pb)) := by
  rw [dlbuild_buf, if_pos rfl, dlFrame_eq_deliFrame]

theorem dlbuild_pl (P : Params) (s : State) :
    (dlbuild P s).buf .pl = Memory.ofBytes 0 (deliPayload s.latches s.orch.cc s.orch.pb) :=
  dlbuild_buf P s .pl

theorem dlbuild_stream (P : Params) (s : State) :
    (dlbuild P s).buf .stream = Memory.ofBytes 0 (deliStream (deliPayload s.latches s.orch.cc s.orch.pb)) :=
  dlbuild_buf P s .stream

theorem dlbuild_temp (P : Params) (s : State) : (dlbuild P s).temp = dlTemp s.latches s.orch.pb := by
  simp [dlbuild, dlAssemble, dlCascade]

theorem dlbuild_crcf (P : Params) (s : State) :
    (dlbuild P s).crc.crcf = crc16r (deliStream (deliPayload s.latches s.orch.cc s.orch.pb)) := by
  rw [dlbuild_crc, dlStreamBytes_eq_deliStream]

theorem dlbuild_keepsBytes (P : Params) (s : State) :
    keepsBytes s (dlbuild P s) (fun c _ => c = .pl ∨ c = .stream ∨ c = .scratch ∨ c = .sub ∨ c = .dlout) := by
  intro c i hout
  obtain ⟨hpl, hstream, hscratch, hsub, hdlout⟩ :
      c ≠ .pl ∧ c ≠ .stream ∧ c ≠ .scratch ∧ c ≠ .sub ∧ c ≠ .dlout := by simpa using hout
  rw [dlbuild_buf, if_neg hdlout, if_neg hscratch, if_neg hsub, if_neg hpl, if_neg hstream]

/-- Settles O43: DLBUILD has no guard, and each part of what it leaves is read back by its lemma. -/
theorem dlbuildResult : Obligations.DlbuildResult := fun s =>
  ⟨dlbuild params s, rfl,
    ⟨holdsBytes_of_buf (dlbuild_pl params s), holdsBytes_of_buf (dlbuild_stream params s), dlbuild_temp params s,
      dlbuild_crcf params s, holdsBytes_of_buf (dlbuild_dlout s)⟩,
    dlbuild_keepsBytes params s,
    ⟨dlbuild_events .., dlbuild_latches .., dlbuild_status .., dlbuild_orch ..⟩,
    dlbuild_cipher .., dlbuild_table .., dlbuild_subst .., dlbuild_rev ..⟩

/-! ### What the frame depends on -/

/-- The first six frame bytes are those of the head, which no payload reaches. -/
theorem getElem?_deliFrame_of_lt_six (payload : List Byte) {i : Nat} (hi : i < 6) :
    (deliFrame payload)[i]? = some (dlMasked params i (deliHead.getD i 0)) := by
  rw [deliFrame_eq, List.getElem?_append_left (by simp; omega), List.getElem?_map, List.getElem?_range (by omega),
    Option.map_some, deliField, List.append_assoc, List.getD_append _ _ _ _ hi]

/-- Settles O45: the frame is that of R176, and its first six bytes do not depend on the payload. -/
theorem dlFirstSixBytesConstant : Obligations.DlFirstSixBytesConstant := by
  intro s s' t t' ht ht' i hi
  cases ht
  cases ht'
  rw [holdsBytes_of_buf (dlbuild_dlout s), holdsBytes_of_buf (dlbuild_dlout s'), getElem?_deliFrame_of_lt_six _ hi,
    getElem?_deliFrame_of_lt_six _ hi]

/-- The cascade's inputs: the low counter byte, identity bytes 0 and 1, CC and PB (R166). -/
theorem dlPayload_congr {l l' : Latches} {cc cc' : Byte} {pb pb' : Vector Byte 3}
    (hctr : low8 l.counter = low8 l'.counter) (hid0 : l.ident[0] = l'.ident[0]) (hid1 : l.ident[1] = l'.ident[1])
    (hcc : cc = cc') (hpb : pb = pb') : dlPayload l cc pb = dlPayload l' cc' pb' := by
  simp only [dlPayload, dlTemp, hctr, hid0, hid1, hcc, hpb]

/-- Settles O53: the frame is that of the payload, whose inputs are those of R177. -/
theorem dlFrameDependence : Obligations.DlFrameDependence := by
  intro c c' o o' s s' t t' ht ht' hcc hpb hctr hid0 hid1 i
  rw [exec_instr] at ht ht'
  cases ht
  cases ht'
  have hscratch : dlScratchSecond params (prepared params c (acceptRequest ⟨c.code, o⟩ s)) =
      dlScratchSecond params (prepared params c' (acceptRequest ⟨c'.code, o'⟩ s')) := by
    refine dlScratchSecond_congr (dlPayload_congr hctr hid0 hid1 ?_ ?_)
    · rw [prepared_cc, prepared_cc, hcc]
    · rw [prepared_pb, prepared_pb]
      exact hpb
  rw [runCommand_dlout, runCommand_dlout, hscratch]

end Sys2Proof.Machine
end

section
/-! SUPPORT. The events that present nothing to the decoder (00_scope.md R8, 70_reset_and_hazards.md R225), and the
driven selects of the unit operations, which leave the control registers and the frames of others alone
(60_exceptions.md R205, 20_memory.md R51). -/

namespace Sys2Proof.Machine

open Sys2Proof Sys2Proof.Claims Sys2Proof.Config

/-! ### Ports that present nothing -/

/-- Settles O11: with no event `step` has nothing to present, and without `start` and `rst` the event is quiet. -/
theorem nothingPresentedChangesNothing : Obligations.NothingPresentedChangesNothing := by
  refine ⟨fun s he => step_of_no_event he, fun s r rest he => ?_⟩
  rw [step_of_quiet he rfl, State.popEvent_of_cons he]
  rfl

theorem step_of_rst {s : State} {start : Bool} {r : Request} {rest : List Event}
    (h : s.events = .ports true start r :: rest) : step s = .next (resetCore s.popEvent) :=
  step_of_quiet h rfl

/-- Settles O12: `rst` presents nothing to the decoder whatever `start` is, and the core is reset. -/
theorem resetClearsStatusAndFrames : Obligations.ResetClearsStatusAndFrames := by
  intro s start r rest he
  exact ⟨_, step_of_rst he, by simp [he], rfl, powerUp_read _ _⟩

/-! ### Driven selects -/

/-- An operation that a select decodes to is one that the encoder presents by that select (30_encoding.md R75). -/
theorem encode_of_decodeSelect {sel : BitVec 4} {x : OpWires} {i : Instr} (h : decodeSelect sel x = .ok i) :
    ∃ y, encode i = .op sel y := by
  unfold decodeSelect at h
  split at h
  case h_1 hsel | h_6 hsel | h_7 hsel =>
    obtain ⟨-, rfl⟩ := reaching_eq_ok h
    exact ⟨_, congrArg (Presented.op · _) (BitVec.eq_of_toNat_eq hsel).symm⟩
  case h_2 hsel | h_3 hsel | h_4 hsel | h_5 hsel | h_8 hsel | h_9 hsel | h_10 hsel =>
    cases h
    exact ⟨_, congrArg (Presented.op · _) (BitVec.eq_of_toNat_eq hsel).symm⟩
  case h_11 => cases h

section
variable {i : Instr} {sel : BitVec 4} {y : OpWires}

/-- No unit operation writes the control registers: only the commands, which are no selects, and ENCODE do. -/
theorem execResult_keepsControl (he : encode i = .op sel y) (hsel : sel ≠ 10) (s : State) :
    keepsControl s (execResult i s) := by
  cases i with
  | pair | off | on | bright | cct => cases he
  | encode r => cases he; exact absurd rfl hsel
  | crc16f | crc16r | rev8 | blkenc | dtab | obf | perm | hfbuild | dlbuild => simp [keepsControl, execResult]

/-- A unit operation leaves a frame alone unless it is its builder: OBF and PERM reach other buffers. -/
theorem execResult_frame {b : Space} (hwf : i.wf = true) (he : encode i = .op sel y) (hsel : sel ≠ 10)
    (hb : (b = .hfout ∧ sel ≠ 8) ∨ (b = .dlout ∧ sel ≠ 9)) (s : State) : (execResult i s).buf b = s.buf b := by
  have hframe : b ≠ .hfcore ∧ b ≠ .stream ∧ b ≠ .pl ∧ b ≠ .scratch ∧ b ≠ .sub ∧ b ≠ .blk := by
    obtain ⟨rfl, -⟩ | ⟨rfl, -⟩ := hb <;> decide
  obtain ⟨hcore, hstream, hpl, hscratch, hsub, hblk⟩ := hframe
  cases i with
  | pair | off | on | bright | cct => cases he
  | encode r => cases he; exact absurd rfl hsel
  | crc16f | crc16r => simp [execResult]
  | rev8 v => rfl
  | blkenc => simp [execResult, blkencOf_buf, hblk]
  | dtab => simp [execResult, dtabOn_buf, hblk]
  | obf d start length key =>
    obtain rfl := (obfWrites_iff d).1 hwf
    simp [execResult, obfOn_buf, dtabOn_buf, hcore, hblk]
  | perm d length key =>
    obtain rfl | rfl := (permWrites_iff d).1 hwf
    · simp [execResult, permOn_buf, hsub]
    · simp [execResult, permOn_buf, hscratch]
  | hfbuild =>
    cases he
    have hout : b ≠ .hfout := by rintro rfl; simp at hb
    simp [execResult, hfbuild_buf, hout, hcore, hblk]
  | dlbuild =>
    cases he
    have hout : b ≠ .dlout := by rintro rfl; simp at hb
    simp [execResult, dlbuild_buf, hout, hscratch, hsub, hpl, hstream]

end

/-- A driven select that goes on is that of an operation, which ran. -/
theorem step_next_of_op {s t : State} {sel : BitVec 4} {x : OpWires} {rest : List Event}
    (he : s.events = .op sel x :: rest) (h : step s = .next t) :
    ∃ i, decodeSelect sel x = .ok i ∧ t = execResult i s.popEvent := by
  cases hd : decodeSelect sel x with
  | ok i => exact ⟨i, rfl, eq_execResult (step_of_decoded he rfl hd ▸ h)⟩
  | error r =>
    obtain ⟨q, rfl, -⟩ := rejected_next (step_of_rejected he rfl hd ▸ h)
    exact absurd hd (decodeSelect_ne_unknownCommand sel x q)

/-- A host read that goes on changes nothing (60_exceptions.md R215). -/
theorem step_next_of_read {s t : State} {port : OutPort} {rest : List Event} (he : s.events = .read port :: rest)
    (h : step s = .next t) : t = s.popEvent := by
  rw [step_of_quiet he rfl] at h
  obtain ⟨⟨start, r, hrst⟩, -⟩ | ⟨-, rfl⟩ := quietEvent_next_cases h
  · cases hrst
  · rfl

/-- Settles O57: a select that goes on ran a well-formed unit operation, and a read changes nothing. -/
theorem unitOperationsKeepControl : Obligations.UnitOperationsKeepControl := by
  intro s t e rest he h
  refine ⟨?_, ?_⟩
  · rintro sel x rfl hsel
    obtain ⟨i, hd, rfl⟩ := step_next_of_op he h
    obtain ⟨y, henc⟩ := encode_of_decodeSelect hd
    have hwf := decodeSelect_wf hd
    exact ⟨execResult_keepsControl henc hsel _, fun h8 => execResult_frame hwf henc hsel (.inl ⟨rfl, h8⟩) _,
      fun h9 => execResult_frame hwf henc hsel (.inr ⟨rfl, h9⟩) _⟩
  · rintro port rfl
    exact step_next_of_read he h

end Sys2Proof.Machine
end

section
/-! SUPPORT. UnknownCommand (60_exceptions.md R206, R210) and how the error state ends (R211): nothing ENCODE
computes reads STATUS, so that what it leaves does not depend on the phase it starts in. -/

namespace Sys2Proof.Machine

open Sys2Proof Sys2Proof.Claims Sys2Proof.Config

/-! ### Taking the exception -/

theorem raise_acceptRequest_buf (r : Request) (s : State) (c : Space) :
    (raiseUnknownCommand (acceptRequest r s)).buf c = if c = .hfout ∨ c = .dlout then [] else s.buf c := by
  rw [raiseUnknownCommand_buf, acceptRequest_buf]
  split_ifs <;> rfl

theorem raise_acceptRequest_keepsBytes (r : Request) (s : State) :
    keepsBytes s (raiseUnknownCommand (acceptRequest r s)) (fun c _ => c = .hfout ∨ c = .dlout) := by
  intro c i hout
  rw [raise_acceptRequest_buf, if_neg hout]

/-- Settles O14: both forms are acceptance and the report, which write STATUS, the latches and the frames alone. -/
theorem unknownCommandTaken : Obligations.UnknownCommandTaken := by
  intro s r rest hcmd he
  have hnone := ofCode_eq_none hcmd
  have hpop := State.popEvent_of_cons he
  refine ⟨raiseUnknownCommand (acceptRequest r { s with events := rest }), ?_, exec_encode_none hnone _, rfl, rfl, rfl,
    holdsBytes_of_buf rfl, holdsBytes_of_buf rfl, raise_acceptRequest_keepsBytes r { s with events := rest },
    rfl, rfl, rfl, rfl, rfl, rfl, rfl, rfl, rfl, rfl⟩
  rw [step_of_request he, encodeOn_none hnone, hpop]

/-! ### ENCODE does not read STATUS -/

/-- `s` with another STATUS. -/
def State.withStatus (s : State) (st : Status) : State := { s with status := st }

section
variable (P : Params) (s : State) (st : Status)

theorem hfParamRegion_withStatus : hfParamRegion P (s.withStatus st) = (hfParamRegion P s).withStatus st := by
  unfold hfParamRegion
  rw [apply_ite (State.withStatus · st)]
  rfl

theorem hfWholePass_hfCheck_withStatus :
    hfWholePass P (hfCheck (s.withStatus st)) = (hfWholePass P (hfCheck s)).withStatus st := rfl

theorem hfbuild_withStatus : hfbuild P (s.withStatus st) = (hfbuild P s).withStatus st := by
  have hload : hfLoad (s.withStatus st) = (hfLoad s).withStatus st := rfl
  rw [hfbuild, hload, hfParamRegion_withStatus, hfWholePass_hfCheck_withStatus]
  rfl

theorem dlbuild_withStatus : dlbuild P (s.withStatus st) = (dlbuild P s).withStatus st := rfl

theorem runCommand_withStatus (c : Command) :
    runCommand P c (s.withStatus st) = (runCommand P c s).withStatus { st with phase := .done, done := true } :=
  calc runCommand P c (s.withStatus st)
    _ = completeEncode (dlbuild P (hfbuild P ((prepared P c s).withStatus st))) := rfl
    _ = completeEncode ((dlbuild P (hfbuild P (prepared P c s))).withStatus st) := by
      rw [hfbuild_withStatus, dlbuild_withStatus]
    _ = (runCommand P c s).withStatus { st with phase := .done, done := true } := rfl

/-- Acceptance leaves nothing of STATUS but the phase, which either end of ENCODE overwrites (R185, R211). -/
theorem encodeOn_withStatus (r : Request) : encodeOn P r (s.withStatus st) = encodeOn P r s := by
  cases hc : Command.ofCode r.cmd with
  | none => rw [encodeOn_none hc, encodeOn_none hc]; rfl
  | some c =>
    have hacc (t : Status) : runCommand P c (acceptRequest r (s.withStatus t)) =
        (runCommand P c (acceptRequest r s)).withStatus ⟨.done, true, false, .none⟩ :=
      runCommand_withStatus P (acceptRequest r s) ⟨t.phase, false, false, .none⟩ c
    rw [encodeOn_some hc, encodeOn_some hc]
    exact (hacc st).trans (hacc s.status).symm

end

/-- Settles O15: both ends of ENCODE and reset overwrite STATUS, whatever it was, so that the error plays no part. -/
theorem nextAcceptanceEndsError : Obligations.NextAcceptanceEndsError := by
  intro s _
  refine ⟨fun c o => ⟨_, exec_instr c o s, runCommand_status ..⟩,
    fun r hr => ⟨_, rfl, encodeOn_status_unknown hr s⟩, fun r => ?_, rfl⟩
  exact congrArg Host.Outcome.next (encodeOn_withStatus params s ⟨.idle, false, false, .none⟩ r).symm

end Sys2Proof.Machine
end

section
/-! SUPPORT. The orchestrator (47_orchestrator.md): the parameter and its block, the two frames of a command, and
that a request alone decides them. -/

namespace Sys2Proof.Machine

open Sys2Proof Sys2Proof.Claims Sys2Proof.Config

/-! ### The parameter -/

theorem toNat_low8 (v : Half) : (low8 v).toNat = v.toNat % 256 := by simp [low8]

theorem toNat_high8 (v : Half) : (high8 v).toNat = v.toNat / 256 := by
  simp only [high8, BitVec.extractLsb'_toNat, Nat.shiftRight_eq_div_pow]
  omega

theorem toNat_clamp (v : Half) :
    (clamp v).toNat = if v.toNat < 1 then 1 else if 1000 < v.toNat then 1000 else v.toNat := by
  rw [clamp, apply_ite BitVec.toNat, apply_ite BitVec.toNat]
  rfl

/-- The orchestrator's registers after a command (R185 steps 1 and 2). -/
theorem runCommand_acceptRequest_orch (P : Params) (c : Command) (o : ReqOperands) (s : State) :
    (runCommand P c (acceptRequest ⟨c.code, o⟩ s)).orch =
      { isPair := isPairFlag (controlCode P c)
        cc     := controlCode P c
        pcl    := if takesParam c then clamp o.param else s.orch.pcl
        pb     := blockOf c o.param } := by
  rw [runCommand_orch, prepared_orch]
  rfl

theorem blockOf_of_takesParam {c : Command} (h : takesParam c = true) (v : Half) :
    blockOf c v = paramBlock (clamp v) := if_pos h

theorem blockOf_of_not_takesParam {c : Command} (h : takesParam c = false) (v : Half) : blockOf c v = #v[0, 0, 0] := by
  simp [blockOf, h]

theorem exec_takesParam {c : Command} (h : takesParam c = true) (o : ReqOperands) (s : State) :
    ∃ t, exec (c.instr o) s = .next t ∧ t.orch.pcl = clamp o.param ∧ t.orch.pb = paramBlock (clamp o.param) := by
  refine ⟨_, exec_instr c o s, ?_⟩
  rw [runCommand_acceptRequest_orch]
  exact ⟨if_pos h, blockOf_of_takesParam h _⟩

theorem exec_not_takesParam {c : Command} (h : takesParam c = false) (o : ReqOperands) (s : State) :
    ∃ t, exec (c.instr o) s = .next t ∧ t.orch.pcl = s.orch.pcl ∧ t.orch.pb = #v[0, 0, 0] := by
  refine ⟨_, exec_instr c o s, ?_⟩
  rw [runCommand_acceptRequest_orch]
  exact ⟨by simp [h], blockOf_of_not_takesParam h _⟩

/-- Settles O47: the two kinds of command, by whether they take a parameter. -/
theorem parameterClampAndBlock : Obligations.ParameterClampAndBlock := by
  intro o s i
  refine ⟨fun hi => ?_, fun hi => ?_⟩
  · obtain ⟨t, ht, hpcl, hpb⟩ : ∃ t, exec i s = .next t ∧ t.orch.pcl = clamp o.param ∧
        t.orch.pb = paramBlock (clamp o.param) := by
      obtain rfl | rfl := hi
      · exact exec_takesParam (c := .bright) rfl o s
      · exact exec_takesParam (c := .cct) rfl o s
    refine ⟨t, ht, ?_⟩
    rw [hpcl, hpb]
    exact ⟨toNat_clamp _, rfl, toNat_high8 _, high8_clamp_le _, toNat_low8 _⟩
  · obtain ⟨t, ht, hpcl, hpb⟩ : ∃ t, exec i s = .next t ∧ t.orch.pcl = s.orch.pcl ∧ t.orch.pb = #v[0, 0, 0] := by
      obtain rfl | rfl | rfl := hi
      · exact exec_not_takesParam (c := .pair) rfl o s
      · exact exec_not_takesParam (c := .off) rfl o s
      · exact exec_not_takesParam (c := .on) rfl o s
    refine ⟨t, ht, hpcl, ?_⟩
    rw [hpb]
    exact ⟨rfl, rfl, rfl⟩

/-! ### The frames -/

theorem runCommand_hfcore (P : Params) (c : Command) (s : State) :
    (runCommand P c s).buf .hfcore = Memory.ofBytes 0 (hfCoreFinal P (prepared P c s)) := by
  rw [runCommand_eq, completeEncode_buf, dlbuild_buf]
  exact hfbuild_hfcore P _

/-- The Deli16 frame of a command, in the closed form of R176. -/
theorem runCommand_dlout_eq_deliFrame (c : Command) (s : State) :
    (runCommand params c s).buf .dlout =
      Memory.ofBytes 0 (deliFrame (deliPayload s.latches (controlCode params c) (blockOf c s.latches.param))) := by
  rw [runCommand_dlout, dlFrame_eq_deliFrame, prepared_latches, prepared_cc, prepared_pb]

/-- The HF core of a command is that of R150 to R155 for its latches, control code and block. -/
theorem hfCoreIs_prepared (c : Command) (s : State) :
    hfCoreIs s.latches (decide (controlCode params c = 0xB4)) (controlCode params c) (blockOf c s.latches.param)
      (hfCoreParam params (prepared params c s)) (hfCoreFinal params (prepared params c s)) := by
  have h := hfCoreIs_hfCoreFinal (prepared params c s)
  rwa [prepared_isPair, prepared_cc, prepared_pb] at h

/-- Settles O46: both forms are `runCommand` after acceptance, and each part of what it leaves is read back by its
lemma. -/
theorem commandsComplete : Obligations.CommandsComplete := by
  intro c o s l cc pb
  let u := acceptRequest ⟨c.code, o⟩ s
  have horch : (runCommand params c u).orch =
      ⟨isPairFlag cc, cc, if takesParam c then clamp o.param else s.orch.pcl, pb⟩ :=
    runCommand_acceptRequest_orch params c o s
  refine ⟨runCommand params c u, hfCoreParam params (prepared params c u), hfCoreFinal params (prepared params c u),
    exec_instr c o s, exec_encode_some (ofCode_code c) s, runCommand_latches params c u, ?_, ?_, ?_, ?_,
    hfCoreIs_prepared c u, holdsBytes_of_buf (runCommand_hfcore params c u),
    holdsBytes_of_buf (runCommand_hfout params c u), holdsBytes_of_buf (runCommand_dlout_eq_deliFrame c u),
    runCommand_status params c u, runCommand_framesWhole params c u, runCommand_table params c u,
    runCommand_events params c u, runCommand_rev params c u⟩
  · rw [horch]
  · rw [horch]
    exact isPairFlag_iff cc
  · rw [horch]
  · rw [horch]

/-! ### What decides the frames -/

/-- Settles O48: the parameter enters the frames through the block alone (R157, R177), which is zero. -/
theorem parameterIgnored : Obligations.ParameterIgnored := by
  intro c o p s t t' hc ht ht'
  have hpb := blockOf_of_not_takesParam hc
  have hblock {o : ReqOperands} {t : State} (h : exec (c.instr o) s = .next t) : t.orch.pb = #v[0, 0, 0] := by
    obtain ⟨u, hu, -, hu_pb⟩ := exec_not_takesParam hc o s
    rw [hu] at h
    cases h
    exact hu_pb
  have hsame := (hpb o.param).trans (hpb p).symm
  exact ⟨hblock ht, hblock ht',
    hfFrameDependence c c o { o with param := p } s s t t' ht ht' rfl (fun _ => hsame) rfl rfl rfl rfl,
    dlFrameDependence c c o { o with param := p } s s t t' ht ht' rfl hsame rfl rfl rfl⟩

/-- Settles O51: a recognised code gives the frames of R157 and R177 for equal inputs, any other code no frames. -/
theorem encodeDeterministic : Obligations.EncodeDeterministic := by
  intro r s s' t t' ht ht'
  cases hc : Command.ofCode r.cmd with
  | none =>
    rw [exec_encode_none hc] at ht ht'
    cases ht
    cases ht'
    exact ⟨fun _ => rfl, fun _ => rfl, rfl, rfl⟩
  | some c =>
    rw [exec_encode_some hc] at ht ht'
    cases ht
    cases ht'
    have hexec (u : State) : exec (c.instr r.ops) u = .next (runCommand params c (acceptRequest r u)) := by
      rw [exec_instr, code_of_ofCode hc]
    refine ⟨hfFrameDependence c c r.ops r.ops s s' _ _ (hexec s) (hexec s') rfl (fun _ => rfl) rfl rfl rfl rfl,
      dlFrameDependence c c r.ops r.ops s s' _ _ (hexec s) (hexec s') rfl rfl rfl rfl rfl, ?_, ?_⟩
    · rw [runCommand_status, runCommand_status, acceptRequest_status, acceptRequest_status]
    · rw [runCommand_latches, runCommand_latches, acceptRequest_latches, acceptRequest_latches]

end Sys2Proof.Machine
end
